-- ==== Sys2Proof/Word.lean ====
section
/-! DEFINITION. The word types of the SPWM block: bytes of the host bus and 32-bit registers (00_scope.md R11). -/

namespace Sys2Proof

/-- One byte lane of the host bus (20_memory.md R53). -/
abbrev Byte := BitVec 8

/-- One register of the host window, and one command word (00_scope.md R11, 30_encoding.md R64). -/
abbrev Word := BitVec 32

/-- A stored duty (00_scope.md R11). -/
abbrev Duty := BitVec 7

end Sys2Proof
end

