-- ==== Sys2Proof/Config.lean ====
section
/-! DEFINITION. What an implementation fixes: the sizes and the frame arithmetic of the spec (00_scope.md R6, R7), its open
parameters (R9, R10, R12) and the sorter's free tie order (40_sorter.md R83). -/

namespace Sys2Proof

namespace Config

/-- `STEP_DURATION`: time units in one duty step (R7). -/
def stepDuration : Nat := 100

/-- `DUTY_MAX`: duty steps in one frame (R7). -/
def dutyMax : Nat := 100

/-- `FRAME_LENGTH` (R7). -/
def frameLength : Nat := dutyMax * stepDuration

end Config

/-- `ARM_REFERENCE` (R10): what an entry's arm value is measured from. -/
inductive ArmReference where
  | frameStart
  | armTime
deriving DecidableEq, Repr, Inhabited

/-- The parameters a transaction depends on. They are fixed for a run. `IDLE_DELAY` is kept less one, so that every value
of the type is a legal delay, 1 to 65535 (R9). -/
structure Params where
  armReference : ArmReference
  idleDelayLessOne : Fin 65535
deriving DecidableEq, Repr

/-- `IDLE_DELAY` in time units (R9). -/
def Params.idleDelay (p : Params) : Nat := p.idleDelayLessOne.val + 1

/-- What a compare-exchange stage of the sorter does with two EQUAL keys: one bit a stage, set for a swap. With all three
clear, the network is the reference network of 40_sorter.md R84. -/
structure TieDraw where
  stage1 : Bool
  stage2 : Bool
  stage3 : Bool
deriving DecidableEq, Repr, Inhabited

namespace Config

/-- The block's `IDLE_DELAY` less one: OPEN in the spec (R9, U3), so nothing can be proved of its value. -/
opaque idleDelayLessOne : Fin 65535

/-- The n-th tie choice of the sorter: a FREE VALUE (R83, U1: "drawn anew at each SUBMIT"). -/
opaque tieDraw : Nat → TieDraw

/-- `BASE` divided by 64: OPEN in the spec (R12, U6). -/
opaque baseWindow : Nat

/-- `BASE`, the host address of the register window, a multiple of 64 (R12). -/
def base : Nat := 64 * baseWindow

/-- The parameters of the block that `State.reset` stands for: `ARM_REFERENCE` at its normative value (R10), `IDLE_DELAY`
open. -/
def params : Params := ⟨.frameStart, idleDelayLessOne⟩

end Config

end Sys2Proof
end

