-- ==== Sys2Proof/Syntax.lean ====
section
/-! DEFINITION. The syntax: one constructor for each row of spec/opcode_table.json. -/

namespace Sys2Proof

/-- The transactions of the opcode table: the four outcomes of a command word (30_encoding.md R66), the ten register reads
(R75) and the two internal events (R76). -/
inductive Instr where
  /-- NOP, 41_commands.md R93. -/
  | nop
  /-- SUBMIT with its red, green and blue duty operands, R94. -/
  | submit (dr dg db : Byte)
  /-- START, R96. -/
  | start
  /-- Any command word that is none of the three above, R98. -/
  | illegal (w : Word)
  /-- RD STATUS, R99. -/
  | rdStatus
  /-- RD TIMER, R100. -/
  | rdTimer
  /-- RD ACT0 to RD ACT3, R101. -/
  | rdAct0
  | rdAct1
  | rdAct2
  | rdAct3
  /-- RD PND0 to RD PND3, R102. -/
  | rdPnd0
  | rdPnd1
  | rdPnd2
  | rdPnd3
  /-- The timer expiry with its STEP, 42_sequencer.md R120. -/
  | expire
  /-- One time unit passes, R119. -/
  | timeTick
deriving DecidableEq, Repr

end Sys2Proof
end

