-- ==== Sys2Proof/WellFormed.lean ====
section
/-! DEFINITION. Which terms of Instr stand for a transaction of the block. -/

namespace Sys2Proof

/-- The word is the NOP word: OP = 0 and every other bit 0 (30_encoding.md R68). -/
def isNopWord (w : Word) : Bool := w.extractLsb' 28 4 == 0x0#4 && w.extractLsb' 0 28 == 0#28

/-- The word is a SUBMIT: OP = 1 and bits [27:24] zero (R69). -/
def isSubmitWord (w : Word) : Bool := w.extractLsb' 28 4 == 0x1#4 && w.extractLsb' 24 4 == 0#4

/-- The word is the START word: OP = 2 and every other bit 0 (R70). -/
def isStartWord (w : Word) : Bool := w.extractLsb' 28 4 == 0x2#4 && w.extractLsb' 0 28 == 0#28

/-- An instruction is well formed when an ILLEGAL holds a word that is no defined command (R66: every word decodes to
exactly one of the four). Every operand value of the others is admitted (R69). -/
def Instr.wf : Instr → Bool
  | .illegal w => !isNopWord w && !isSubmitWord w && !isStartWord w
  | .nop | .submit _ _ _ | .start => true
  | .rdStatus | .rdTimer => true
  | .rdAct0 | .rdAct1 | .rdAct2 | .rdAct3 => true
  | .rdPnd0 | .rdPnd1 | .rdPnd2 | .rdPnd3 => true
  | .expire | .timeTick => true

end Sys2Proof
end

