-- ==== Sys2Proof/Decode.lean ====
section
/-! DEFINITION. Host accesses, the decoder from an access to an instruction (20_memory.md R47 to R53, 30_encoding.md R64 to
R75), and the encoder. -/

namespace Sys2Proof

/-- One host access (20_memory.md R49): `rel` is the host address less BASE, so that BASE stays open (assumption 3); a
write carries its bytes, lane 0 first (R53), and its size is their number. -/
inductive Access where
  | read (rel : Int) (nbytes : Nat)
  | write (rel : Int) (data : List Byte)
deriving DecidableEq, Repr

/-- The address of an access, less BASE. -/
def Access.rel : Access → Int
  | .read rel _ => rel
  | .write rel _ => rel

/-- The size of an access in bytes. -/
def Access.nbytes : Access → Nat
  | .read _ n => n
  | .write _ data => data.length

/-- The host address `a` less the window's base. -/
def relOf (base a : Nat) : Int := (a : Int) - (base : Int)

/-- The access reaches the block: `BASE <= a < BASE + 64` (R47). -/
def inWindow (rel : Int) : Bool := decide (0 ≤ rel) && decide (rel < 64)

/-- Why an access names no instruction. Only `outsideWindow` leaves the block alone; the others are the BAD_ACCESS causes
of R48 and R50 to R52. -/
inductive BusReject where
  | outsideWindow
  | badSize
  | misaligned
  | unmapped
  | wrongDirection
deriving DecidableEq, Repr

/-- The four byte lanes of a register, lane 0 first (R53). -/
def lanesOfWord (w : Word) : List Byte :=
  [w.extractLsb' 0 8, w.extractLsb' 8 8, w.extractLsb' 16 8, w.extractLsb' 24 8]

/-- The word that four byte lanes carry (R53); no other number of lanes is a register (R50). -/
def wordOfLanes : List Byte → Option Word
  | [b0, b1, b2, b3] => some (b3 ++ b2 ++ b1 ++ b0)
  | _ => none

/-- Decoding of a command word (R66, R67, R73, 41_commands.md R89). -/
def decodeCommand (w : Word) : Instr :=
  if isNopWord w then .nop
  else if isSubmitWord w then .submit (w.extractLsb' 16 8) (w.extractLsb' 8 8) (w.extractLsb' 0 8)
  else if isStartWord w then .start
  else .illegal w

/-- The read at an aligned offset of the window (10_state.md R34, 30_encoding.md R75). -/
def decodeReadAt (off : Nat) : Except BusReject Instr :=
  if off = 0x00 then .error .wrongDirection
  else if off = 0x04 then .ok .rdStatus
  else if off = 0x08 then .ok .rdTimer
  else if off = 0x10 then .ok .rdAct0
  else if off = 0x14 then .ok .rdAct1
  else if off = 0x18 then .ok .rdAct2
  else if off = 0x1C then .ok .rdAct3
  else if off = 0x20 then .ok .rdPnd0
  else if off = 0x24 then .ok .rdPnd1
  else if off = 0x28 then .ok .rdPnd2
  else if off = 0x2C then .ok .rdPnd3
  else .error .unmapped

/-- The write of a word at an aligned offset: only CMD takes one (10_state.md R34, R52). -/
def decodeWriteAt (off : Nat) (w : Word) : Except BusReject Instr :=
  if off = 0x00 then .ok (decodeCommand w)
  else
    match decodeReadAt off with
    | .ok _ => .error .wrongDirection
    | .error _ => .error .unmapped

/-- The decoder: total on every access, refusing by name (20_memory.md R47 to R52). -/
def decode : Access → Except BusReject Instr
  | .read rel n =>
    if inWindow rel = false then .error .outsideWindow
    else if n ≠ 4 then .error .badSize
    else if rel.toNat % 4 ≠ 0 then .error .misaligned
    else decodeReadAt rel.toNat
  | .write rel data =>
    if inWindow rel = false then .error .outsideWindow
    else
      match wordOfLanes data with
      | none => .error .badSize
      | some w => if rel.toNat % 4 ≠ 0 then .error .misaligned else decodeWriteAt rel.toNat w

/-- The command word of an instruction that has one (30_encoding.md R68 to R70). -/
def encodeWord : Instr → Option Word
  | .nop => some 0x00000000#32
  | .submit dr dg db => some (0x10#8 ++ dr ++ dg ++ db)
  | .start => some 0x20000000#32
  | .illegal w => some w
  | .rdStatus | .rdTimer => none
  | .rdAct0 | .rdAct1 | .rdAct2 | .rdAct3 => none
  | .rdPnd0 | .rdPnd1 | .rdPnd2 | .rdPnd3 => none
  | .expire | .timeTick => none

/-- The offset a register read is made at (10_state.md R34). -/
def readOffset : Instr → Option Nat
  | .rdStatus => some 0x04
  | .rdTimer => some 0x08
  | .rdAct0 => some 0x10
  | .rdAct1 => some 0x14
  | .rdAct2 => some 0x18
  | .rdAct3 => some 0x1C
  | .rdPnd0 => some 0x20
  | .rdPnd1 => some 0x24
  | .rdPnd2 => some 0x28
  | .rdPnd3 => some 0x2C
  | .nop | .submit _ _ _ | .start | .illegal _ => none
  | .expire | .timeTick => none

/-- The encoder: the host access that performs an instruction. The two internal events have none (30_encoding.md R76). -/
def encode (i : Instr) : Option Access :=
  match encodeWord i with
  | some w => some (.write 0 (lanesOfWord w))
  | none => (readOffset i).map fun off => .read off 4

/-- The `n` lowest bytes of a number, lowest first. -/
def lanesOfNat : Nat → Nat → List Byte
  | 0, _ => []
  | n + 1, w => BitVec.ofNat 8 w :: lanesOfNat n (w / 256)

/-- The access that a row of the opcode table stands for: a row of 32 bits or more is a word written to CMD, a shorter one
an offset read (mask 0x3F: its low six bits), and a row of no bits (an internal event) no access (assumption 17). -/
def accessOfTableWord (nbits w : Nat) : Option Access :=
  if nbits = 0 then none
  else if nbits < 32 then some (.read ((w % 64 : Nat) : Int) 4)
  else some (.write 0 (lanesOfNat ((nbits + 7) / 8) (w % 2 ^ nbits)))

/-- What the decoder reads from an instruction whose bits are `w`, numbered as the opcode table numbers them. -/
def decodeTableWord (nbits w : Nat) : Option Instr :=
  match accessOfTableWord nbits w with
  | none => none
  | some a =>
    match decode a with
    | .ok i => some i
    | .error _ => none

end Sys2Proof
end

