-- ==== Sys2Proof/Machine/State.lean ====
section
/-! DEFINITION. The state of the block (10_state.md), its reset value (R41), and the reasons a step can stop. -/

namespace Sys2Proof.Machine

/-- An output line: L0 red, L1 green, L2 blue (10_state.md R25). An absent line, the source's `NONE`, is `Option.none`. -/
inductive Line where
  | l0
  | l1
  | l2
deriving DecidableEq, Repr

/-- The codes of the FAULT register that the block can hold (60_exceptions.md R134; codes 4 to 7 are never produced). -/
inductive FaultCode where
  | noFault
  | illegalCmd
  | startTwice
  | badAccess
deriving DecidableEq, Repr

/-- A frame entry, the source's DutyPulse (00_scope.md R15). -/
structure Entry where
  line : Option Line
  duty : Duty
deriving DecidableEq, Repr

/-- A frame register file: four entries (10_state.md R23, R24). -/
structure Frame where
  e0 : Entry
  e1 : Entry
  e2 : Entry
  e3 : Entry
deriving DecidableEq, Repr

/-- The levels of the three output lines; true is high (10_state.md R29). -/
structure Levels where
  l0 : Bool
  l1 : Bool
  l2 : Bool
deriving DecidableEq, Repr

/-- What an arm of the timer was for (10_state.md R40). -/
inductive ArmKind where
  | entry (j : Nat) (line : Option Line) (duty deadline : Nat)
  | idle
deriving DecidableEq, Repr

/-- The events of the observation trace (10_state.md R40); the first argument is the time. -/
inductive Event where
  | line (t : Nat) (k : Line) (level : Bool)
  | arm (t count : Nat) (kind : ArmKind)
  | swap (t : Nat)
  | submit (t dr dg db : Nat)
  | fault (t : Nat) (code : FaultCode)
deriving DecidableEq, Repr

/-- Which agent makes the next transaction (60_exceptions.md R145): the host with an access, the block with the one
internal event that is enabled, or the reset input (70_reset_and_hazards.md R156). -/
inductive Turn where
  | access (a : Access)
  | block
  | reset
deriving DecidableEq, Repr

/-- What the host does after the last turn of the schedule: nothing any more, or it goes on for ever, its next batch of turns
being the `batch`-th of `Config.hostTurns`. -/
inductive HostLater where
  | silent
  | goesOn (batch : Nat)
deriving DecidableEq, Repr

end Sys2Proof.Machine

namespace Sys2Proof.Config

/-- The n-th batch of turns of a host that goes on: FREE VALUES (60_exceptions.md R145, R146). A batch is a finite list and a
move of the block follows it, which is the fairness of 70_reset_and_hazards.md R172. -/
opaque hostTurns : Nat → List Machine.Turn

end Sys2Proof.Config

namespace Sys2Proof.Machine

/-- The machine. The first ten fields are the block's state elements (10_state.md R20), `now` and `trace` its observation
(R40), and the last five the model's own (assumptions 1, 5, 6, 7). -/
structure State where
  /-- ACT (R23). -/
  act : Frame
  /-- PND (R24). -/
  pnd : Frame
  /-- ACT_CUR (R26). -/
  actCur : BitVec 3
  /-- PND_V (R27). -/
  pndV : Bool
  /-- CUR_LINE (R28). -/
  curLine : Option Line
  /-- LINE[0..2] (R29). -/
  lines : Levels
  /-- TCNT (R30). -/
  tcnt : BitVec 16
  /-- TARMED (R31). -/
  tarmed : Bool
  /-- STARTED (R32). -/
  started : Bool
  /-- FAULT (R33). -/
  fault : FaultCode
  /-- NOW (R40). -/
  now : Nat
  /-- TRACE, oldest event first (R40). -/
  trace : List Event
  /-- The value of the last host read, lane 0 first; none before the first one (20_memory.md R49, R53). -/
  reply : Option (List Byte)
  /-- How many tie choices the sorter has drawn (40_sorter.md R83). -/
  draws : Nat
  /-- The turns to come, the next one first. -/
  schedule : List Turn
  /-- What the host does after them. -/
  hostLater : HostLater
  /-- The parameters, which no transaction writes (00_scope.md R9, R10). -/
  cfg : Params
deriving DecidableEq, Repr

/-- The entry (0, 0) that the frame register files hold at reset (R41): line 0 is L0. -/
def Entry.reset : Entry := ⟨some .l0, 0#7⟩

/-- A frame register file at reset (R41). -/
def Frame.reset : Frame := ⟨.reset, .reset, .reset, .reset⟩

/-- The machine right after reset (10_state.md R41, 70_reset_and_hazards.md R155), with a host that may do anything
(assumption 1). -/
def State.reset : State where
  act := .reset
  pnd := .reset
  actCur := 4#3
  pndV := false
  curLine := none
  lines := ⟨false, false, false⟩
  tcnt := 0#16
  tarmed := false
  started := false
  fault := .noFault
  now := 0
  trace := []
  reply := none
  draws := 0
  schedule := []
  hostLater := .goesOn 0
  cfg := Config.params

/-- No step of this machine stops with a fault: the spec's faults are recorded in the FAULT register and the block goes on
in a halted state (60_exceptions.md R135, R137; assumption 10). So the type has no constructor. -/
inductive Fault where
deriving DecidableEq, Repr

/-- Why `exec` gives no transition. -/
inductive Refusal where
  /-- Raised by exec's arm of an instruction that has no meaning yet; no arm raises it now. Safe. -/
  | notModelled (mnemonic : String)
  /-- Raised by EXPIRE and TIME_TICK in a state in which the spec does not enable the event (42_sequencer.md R119, R120), so
  that no such transition exists; `step` never asks for one. Safe. -/
  | notEnabled (event : String)
deriving DecidableEq, Repr

end Sys2Proof.Machine
end

