-- ==== Sys2Proof/Machine/Operands.lean ====
section
/-! DEFINITION. Operand forms: the saturated duty operands of SUBMIT (30_encoding.md R71), the codes of lines and faults
(10_state.md R25, 60_exceptions.md R134), and access to the entries of a frame. -/

namespace Sys2Proof.Machine

/-- `sat100` of an 8-bit operand: `min(field, 100)`, a 7-bit duty (R71). -/
def sat100 (f : Byte) : Duty := BitVec.ofNat 7 (min f.toNat 100)

/-- The 2-bit code of a line, NONE being 3 (R25). -/
def lineCode : Option Line → BitVec 2
  | some .l0 => 0#2
  | some .l1 => 1#2
  | some .l2 => 2#2
  | none => 3#2

/-- The 3-bit code of a fault (R134). -/
def FaultCode.code : FaultCode → BitVec 3
  | .noFault => 0#3
  | .illegalCmd => 1#3
  | .startTwice => 2#3
  | .badAccess => 3#3

/-- Entry `j` of a frame register file, `j` in 0 to 3 (10_state.md R23). -/
def Frame.get (f : Frame) : Nat → Entry
  | 0 => f.e0
  | 1 => f.e1
  | 2 => f.e2
  | _ => f.e3

/-- The level of a line. -/
def Levels.get (v : Levels) : Line → Bool
  | .l0 => v.l0
  | .l1 => v.l1
  | .l2 => v.l2

/-- The levels with one line driven. -/
def Levels.set (v : Levels) (k : Line) (level : Bool) : Levels :=
  match k with
  | .l0 => { v with l0 := level }
  | .l1 => { v with l1 := level }
  | .l2 => { v with l2 := level }

end Sys2Proof.Machine
end

