-- ==== Sys2Proof/Machine/Flags.lean ====
section
/-! DEFINITION. The flags of the block as the host reads them (10_state.md R36 to R39) and the condition of its one interrupt
(60_exceptions.md R142). -/

namespace Sys2Proof.Machine

/-- The STATUS word: reserved zeros, FAULT, a zero, TARMED, L2, L1, L0, CURLINE, CURSOR, STARTED, SCHED (41_commands.md R99). -/
def statusWord (s : State) : Word :=
  0#17 ++ s.fault.code ++ 0#1 ++ BitVec.ofBool s.tarmed ++ BitVec.ofBool s.lines.l2 ++ BitVec.ofBool s.lines.l1
    ++ BitVec.ofBool s.lines.l0 ++ lineCode s.curLine ++ s.actCur ++ BitVec.ofBool s.started ++ BitVec.ofBool s.pndV

/-- The TIMER word (R100). -/
def timerWord (s : State) : Word := 0#16 ++ s.tcnt

/-- The word of a frame entry, for ACTi and PNDi (R101, R102). -/
def entryWord (e : Entry) : Word := 0#22 ++ lineCode e.line ++ 0#1 ++ e.duty

/-- The expiry is pending: `TARMED = 1 and TCNT = 0` (60_exceptions.md R142). -/
def State.expiryPending (s : State) : Bool := s.tarmed && s.tcnt == 0#16

/-- The expiry is enabled: pending, and no fault (42_sequencer.md R120). -/
def State.expiryEnabled (s : State) : Bool := s.expiryPending && s.fault == .noFault

end Sys2Proof.Machine
end

