-- ==== Sys2Proof/Machine/Sorter.lean ====
section
/-! DEFINITION. The duty-cycle sorter (40_sorter.md). -/

namespace Sys2Proof.Machine

/-- One compare-exchange stage: it swaps when the later key is strictly less (R84), and when the keys are EQUAL just if
`swapTie` says so (R83: the order of tied entries is not fixed). -/
def compareExchange (swapTie : Bool) (a b : Entry) : Entry × Entry :=
  if decide (b.duty < a.duty) || (decide (b.duty = a.duty) && swapTie) then (b, a) else (a, b)

/-- SORT3 under a tie choice: stages on positions (0,1), (1,2), (0,1) (R84). Over all tie choices its results are exactly
those that R81 and R82 allow (R83). -/
def sort3 (d : TieDraw) (v0 v1 v2 : Entry) : Entry × Entry × Entry :=
  let p := compareExchange d.stage1 v0 v1
  let q := compareExchange d.stage2 p.2 v2
  let r := compareExchange d.stage3 p.1 q.1
  (r.1, r.2, q.2)

/-- The reference network SORT3_REF (R84): no stage swaps equal keys. -/
def sort3Ref : Entry → Entry → Entry → Entry × Entry × Entry := sort3 ⟨false, false, false⟩

end Sys2Proof.Machine
end

