-- ==== Sys2Proof/Machine/Ops.lean ====
section
/-! DEFINITION. The named operations over the state that transactions are made of: events, line and timer effects
(42_sequencer.md R116, R117), the fault primitive (60_exceptions.md R135), the reset event (70_reset_and_hazards.md R155),
the answer to a host read, and the frame build (41_commands.md R91). -/

namespace Sys2Proof.Machine

/-- `emit E` (00_scope.md R14): append an event to the trace. -/
def State.emit (e : Event) (s : State) : State := { s with trace := s.trace ++ [e] }

/-- `SetLine(k, level)` (R116). -/
def State.setLine (k : Line) (level : Bool) (s : State) : State :=
  { s with lines := s.lines.set k level, trace := s.trace ++ [.line s.now k level] }

/-- `Arm(n, kind)` (R117). -/
def State.armTimer (n : Nat) (kind : ArmKind) (s : State) : State :=
  { s with tcnt := BitVec.ofNat 16 n, tarmed := true, trace := s.trace ++ [.arm s.now n kind] }

/-- `raise Fault(code)`: taking the block's one kind of exception. The first fault wins, nothing else is written, and the
block is halted from then on (60_exceptions.md R135 to R137). There is no return from it but reset (R139). -/
def State.raiseFault (code : FaultCode) (s : State) : State :=
  if s.fault = .noFault then { s with fault := code, trace := s.trace ++ [.fault s.now code] } else s

/-- The reset event: every state element and the observation at their reset values, from any state (R155). It is the only
way out of a fault (60_exceptions.md R139). The host's turns, the count of draws and the parameters are no state of the
block and stay (assumption 12). -/
def State.resetInput (s : State) : State :=
  { State.reset with draws := s.draws, schedule := s.schedule, hostLater := s.hostLater, cfg := s.cfg }

/-- The value of a host read is given back to the host (20_memory.md R49). -/
def State.answer (lanes : List Byte) (s : State) : State := { s with reply := some lanes }

/-- A register read: the value of the register, and no other effect (R54), also in a fault (60_exceptions.md R138). -/
def State.answerWord (w : Word) (s : State) : State := s.answer (lanesOfWord w)

/-- A command takes effect only while there is no fault; a write in a fault is ignored (20_memory.md R49,
60_exceptions.md R137). -/
def State.command (f : State → State) (s : State) : State :=
  if s.fault = .noFault then f s else s

/-- `BUILD_FRAME(fr, fg, fb)` under a tie choice (R91): the sorted channel entries, then the sentinel. -/
def buildFrame (d : TieDraw) (fr fg fb : Byte) : Frame :=
  let o := sort3 d ⟨some .l0, sat100 fr⟩ ⟨some .l1, sat100 fg⟩ ⟨some .l2, sat100 fb⟩
  ⟨o.1, o.2.1, o.2.2, ⟨none, 100#7⟩⟩

end Sys2Proof.Machine
end

