-- ==== Sys2Proof/Machine/Sequencer.lean ====
section
/-! DEFINITION. The sequencer: Countdown, STEP with its three paths, and the two internal events (42_sequencer.md). -/

namespace Sys2Proof.Machine

/-- `Countdown(d, prev)` for both values of ARM_REFERENCE (R113). Where `d < prev`, which no run reaches (R114), the
difference is 0 (assumption 11). -/
def countdown (ref : ArmReference) (d prev : Nat) : Nat :=
  match ref with
  | .frameStart => (d - prev) * Config.stepDuration
  | .armTime => d * Config.stepDuration

/-- The duty of the entry before entry `j`, 0 for entry 0 (R107). -/
def prevDuty (f : Frame) (j : Nat) : Nat :=
  if j = 0 then 0 else (f.get (j - 1)).duty.toNat

/-- The turn-off of STEP_ENTRY: the line CUR_LINE names is driven low, if it names one (R108). -/
def turnOff (s : State) : State :=
  match s.curLine with
  | some k => s.setLine k false
  | none => s

/-- STEP_ENTRY, path 1 (R107, R109): turn off the line active before, arm for the entry dequeued, make its line the current
one, advance the cursor. -/
def stepEntry (s : State) : State :=
  let j := s.actCur.toNat
  let e := s.act.get j
  let n := countdown s.cfg.armReference e.duty.toNat (prevDuty s.act j)
  let armed := (turnOff s).armTimer n (.entry j e.line e.duty.toNat (e.duty.toNat * Config.stepDuration))
  { armed with curLine := e.line, actCur := s.actCur + 1#3 }

/-- SWAP, the first half of path 2 (R110): take the pending frame, set the three lines high, replace ACT, reset the cursor. -/
def swapFrame (s : State) : State :=
  let high := ((({ s with pndV := false }).setLine .l0 true).setLine .l1 true).setLine .l2 true
  ({ high with act := s.pnd, actCur := 0#3 }).emit (.swap s.now)

/-- IDLE, path 3 (R111). -/
def stepIdle (s : State) : State := s.armTimer s.cfg.idleDelay .idle

/-- STEP (R106). -/
def sequencerStep (s : State) : State :=
  if s.actCur < 4#3 then stepEntry s
  else if s.pndV then stepEntry (swapFrame s)
  else stepIdle s

/-- EXPIRE (R120): when enabled, disarm and STEP, in one transaction. -/
def execExpire (s : State) : Host.Outcome State Fault Refusal :=
  if s.expiryEnabled then .next (sequencerStep { s with tarmed := false })
  else .refused (.notEnabled "EXPIRE")

/-- The effect of a time tick: time passes, and the timer counts while it is armed, above 0 and not frozen by a fault (R119,
60_exceptions.md R137). -/
def tickEffect (s : State) : State :=
  { s with
    now := s.now + 1
    tcnt := if s.fault = .noFault ∧ s.tarmed = true ∧ s.tcnt ≠ 0#16 then s.tcnt - 1#16 else s.tcnt }

/-- TIME_TICK (R119): enabled just when no enabled expiry waits. -/
def execTimeTick (s : State) : Host.Outcome State Fault Refusal :=
  if s.expiryEnabled then .refused (.notEnabled "TIME_TICK")
  else .next (tickEffect s)

end Sys2Proof.Machine
end

