-- ==== Sys2Proof/Machine/Commands.lean ====
section
/-! DEFINITION. The commands written to CMD (41_commands.md R93 to R98), each as the whole transaction of its write: the first
check is always FAULT (60_exceptions.md R144). -/

namespace Sys2Proof.Machine

/-- NOP (R93): nothing. -/
def execNop (s : State) : Host.Outcome State Fault Refusal := .next (s.command fun t => t)

/-- The effect of SUBMIT (R94): a frame built with a fresh tie choice becomes the pending frame. -/
def submitFrame (fr fg fb : Byte) (s : State) : State :=
  ({ s with
      pnd := buildFrame (Config.tieDraw s.draws) fr fg fb
      pndV := true
      draws := s.draws + 1 }).emit
    (.submit s.now (sat100 fr).toNat (sat100 fg).toNat (sat100 fb).toNat)

/-- SUBMIT (R94). -/
def execSubmit (fr fg fb : Byte) (s : State) : Host.Outcome State Fault Refusal :=
  .next (s.command (submitFrame fr fg fb))

/-- The effect of START (R96): a second one is a fault (R97), the first performs the startup STEP. -/
def startBlock (s : State) : State :=
  if s.started then s.raiseFault .startTwice
  else sequencerStep { s with started := true }

/-- START (R96, R97). -/
def execStart (s : State) : Host.Outcome State Fault Refusal := .next (s.command startBlock)

/-- ILLEGAL (R98): the fault ILLEGAL_CMD and nothing else, whatever the word; no part of the word is recorded
(60_exceptions.md R134). -/
def execIllegal (_w : Word) (s : State) : Host.Outcome State Fault Refusal :=
  .next (s.command (State.raiseFault .illegalCmd))

end Sys2Proof.Machine
end

