-- ==== Sys2Proof/Machine/Reads.lean ====
section
/-! DEFINITION. The register reads (41_commands.md R99 to R102). Each gives its register's value to the host and changes
nothing else (20_memory.md R54), in a fault too (60_exceptions.md R138). -/

namespace Sys2Proof.Machine

/-- RD STATUS (R99). -/
def execRdStatus (s : State) : Host.Outcome State Fault Refusal := .next (s.answerWord (statusWord s))

/-- RD TIMER (R100). -/
def execRdTimer (s : State) : Host.Outcome State Fault Refusal := .next (s.answerWord (timerWord s))

/-- RD ACT0 (R101). -/
def execRdAct0 (s : State) : Host.Outcome State Fault Refusal := .next (s.answerWord (entryWord s.act.e0))

/-- RD ACT1 (R101). -/
def execRdAct1 (s : State) : Host.Outcome State Fault Refusal := .next (s.answerWord (entryWord s.act.e1))

/-- RD ACT2 (R101). -/
def execRdAct2 (s : State) : Host.Outcome State Fault Refusal := .next (s.answerWord (entryWord s.act.e2))

/-- RD ACT3 (R101). -/
def execRdAct3 (s : State) : Host.Outcome State Fault Refusal := .next (s.answerWord (entryWord s.act.e3))

/-- RD PND0 (R102), whatever PND_V is. -/
def execRdPnd0 (s : State) : Host.Outcome State Fault Refusal := .next (s.answerWord (entryWord s.pnd.e0))

/-- RD PND1 (R102), whatever PND_V is. -/
def execRdPnd1 (s : State) : Host.Outcome State Fault Refusal := .next (s.answerWord (entryWord s.pnd.e1))

/-- RD PND2 (R102), whatever PND_V is. -/
def execRdPnd2 (s : State) : Host.Outcome State Fault Refusal := .next (s.answerWord (entryWord s.pnd.e2))

/-- RD PND3 (R102), whatever PND_V is. -/
def execRdPnd3 (s : State) : Host.Outcome State Fault Refusal := .next (s.answerWord (entryWord s.pnd.e3))

end Sys2Proof.Machine
end

