-- ==== Sys2Proof/Machine/Dispatch.lean ====
section
/-! DEFINITION. The meaning of every instruction, one arm a constructor. -/

namespace Sys2Proof.Machine

def exec (i : Instr) (s : State) : Host.Outcome State Fault Refusal :=
  match i with
  | .nop => Sys2Proof.Machine.execNop s
  | .submit dr dg db => Sys2Proof.Machine.execSubmit dr dg db s
  | .start => Sys2Proof.Machine.execStart s
  | .illegal w => Sys2Proof.Machine.execIllegal w s
  | .rdStatus => Sys2Proof.Machine.execRdStatus s
  | .rdTimer => Sys2Proof.Machine.execRdTimer s
  | .rdAct0 => Sys2Proof.Machine.execRdAct0 s
  | .rdAct1 => Sys2Proof.Machine.execRdAct1 s
  | .rdAct2 => Sys2Proof.Machine.execRdAct2 s
  | .rdAct3 => Sys2Proof.Machine.execRdAct3 s
  | .rdPnd0 => Sys2Proof.Machine.execRdPnd0 s
  | .rdPnd1 => Sys2Proof.Machine.execRdPnd1 s
  | .rdPnd2 => Sys2Proof.Machine.execRdPnd2 s
  | .rdPnd3 => Sys2Proof.Machine.execRdPnd3 s
  | .expire => Sys2Proof.Machine.execExpire s
  | .timeTick => Sys2Proof.Machine.execTimeTick s

end Sys2Proof.Machine
end

