-- ==== Sys2Proof/Machine/Bus.lean ====
section
/-! DEFINITION. The three kinds of transaction (60_exceptions.md R150) around exec: a host access (20_memory.md R49), the
block's own next event (60_exceptions.md R145), and the reset input. -/

namespace Sys2Proof.Machine

/-- The access of a word that names no register or command: BAD_ACCESS, a read returning 0 in every lane (20_memory.md R49,
60_exceptions.md R136). In a fault no new fault is raised, and the read still returns 0 (R138). -/
def badAccess (a : Access) (s : State) : State :=
  match a with
  | .read _ n => (s.raiseFault .badAccess).answer (List.replicate n 0#8)
  | .write _ _ => s.raiseFault .badAccess

/-- One host access, MemRead or MemWrite (20_memory.md R49). One outside the window does not reach the block (R47,
assumption 4). -/
def hostAccess (a : Access) (s : State) : Host.Outcome State Fault Refusal :=
  match decode a with
  | .ok i => exec i s
  | .error r => if r = .outsideWindow then .next s else .next (badAccess a s)

/-- The internal event that is enabled: the expiry when it is, else the time tick (60_exceptions.md R145). -/
def enabledEvent (s : State) : Instr := if s.expiryEnabled then .expire else .timeTick

/-- The block moves by itself. -/
def blockMove (s : State) : Host.Outcome State Fault Refusal := exec (enabledEvent s) s

/-- The transaction that a turn stands for. -/
def takeTurn (t : Turn) (s : State) : Host.Outcome State Fault Refusal :=
  match t with
  | .access a => hostAccess a s
  | .block => blockMove s
  | .reset => .next s.resetInput

/-- Whose turn it is, and the state with that turn taken off: the first turn of the schedule; after the last one the block's
own move if the host is silent, else the next batch of the host's turns and then a move of the block (assumption 1). -/
def State.nextTurn (s : State) : Turn × State :=
  match s.schedule with
  | turn :: rest => (turn, { s with schedule := rest })
  | [] =>
    match s.hostLater with
    | .silent => (.block, s)
    | .goesOn n =>
      match Config.hostTurns n with
      | [] => (.block, { s with hostLater := .goesOn (n + 1) })
      | turn :: rest => (turn, { s with schedule := rest ++ [.block], hostLater := .goesOn (n + 1) })

/-- The next transaction. -/
def nextTransaction (s : State) : Host.Outcome State Fault Refusal := takeTurn s.nextTurn.1 s.nextTurn.2

/-- The turn that performs a row of the opcode table next (assumption 17). -/
def turnOfTableWord (nbits w : Nat) : Turn :=
  match accessOfTableWord nbits w with
  | some a => .access a
  | none => .block

end Sys2Proof.Machine
end

