-- ==== Sys2Proof/Machine/Step.lean ====
section
/-! DEFINITION. One step: one transaction (00_scope.md R19). -/

namespace Sys2Proof.Machine

/-- The next transaction of the total order (20_memory.md R57). -/
def step (s : State) : Host.Outcome State Fault Refusal := nextTransaction s

/-- The block fetches nothing (10_state.md R22); its next instruction is the next turn of the schedule. So the row's access
is put before the turns to come (assumption 2). -/
def State.withFetchWord (s : State) (nbits w : Nat) : State :=
  { s with schedule := turnOfTableWord nbits w :: s.schedule }

end Sys2Proof.Machine
end

