-- ==== Sys2Proof/Machine/Producer.lean ====
section
/-! DEFINITION. TO_DUTY, the producer's conversion of a channel value (41_commands.md R90). It is no part of the block; the
SUBMITF pseudo-instruction uses it (30_encoding.md R78). -/

namespace Sys2Proof.Machine

/-- A channel value: an exact ratio `num / den`, or a value that is no number (R90, assumption 15). -/
inductive Channel where
  | ratio (num : Int) (den : Nat)
  | nan
  | infinite
deriving DecidableEq, Repr

/-- `num / den` rounded to the nearest integer, an exact half away from zero (R90); `den` is positive. -/
def roundHalfAway (num : Int) (den : Nat) : Int :=
  let magnitude : Int := ((2 * num.natAbs + den) / (2 * den) : Nat)
  if num < 0 then -magnitude else magnitude

/-- `TO_DUTY(c)` (R90): `100 * c` rounded, then capped to 0 to 100. A NaN, an infinity and a ratio over 0 have none (U19). -/
def toDuty : Channel → Option Nat
  | .ratio num den => if den = 0 then none else some (max 0 (min 100 (roundHalfAway (100 * num) den))).toNat
  | .nan => none
  | .infinite => none

end Sys2Proof.Machine
end

