-- ==== Sys2Proof/Machine/Harness.lean ====
section
/-! DEFINITION. The host program text of the spec: the assembler's lines, the pseudo-instructions and the harness directive
WAIT (30_encoding.md R77 to R79). No transaction of the block depends on this file. -/

namespace Sys2Proof.Machine

/-- A readable register by name (R77). -/
inductive RegName where
  | status
  | timer
  | act (i : Fin 4)
  | pnd (i : Fin 4)
deriving DecidableEq, Repr

/-- The window offset of a register (10_state.md R34). -/
def RegName.offset : RegName → Nat
  | .status => 0x04
  | .timer => 0x08
  | .act i => 0x10 + 4 * i.val
  | .pnd i => 0x20 + 4 * i.val

/-- One line of a host program (R77 to R79). -/
inductive HostLine where
  | nop
  | submit (dr dg db : Nat)
  | start
  | cmd (w : Word)
  | rd (r : RegName)
  | submitF (r g b : Channel)
  | off
  | full
  | pollSub (dr dg db : Nat)
  | wait (n : Nat)
deriving DecidableEq, Repr

/-- Why a line gives no run. -/
inductive LineError where
  /-- An operand outside 0 to 255: an assembly error (R77). -/
  | operandRange
  /-- A channel value with no TO_DUTY (41_commands.md R90). -/
  | noDuty
  /-- WAIT ran out of moves, or a transaction gave no next state. -/
  | stuck
deriving DecidableEq, Repr

/-- The write of a word to CMD. -/
def cmdWrite (w : Word) : Access := .write 0 (lanesOfWord w)

/-- The SUBMIT word of three operands, each 0 to 255 (R69, R77). -/
def assembleSubmit (dr dg db : Nat) : Except LineError Access :=
  if dr ≤ 255 ∧ dg ≤ 255 ∧ db ≤ 255 then
    .ok (cmdWrite (0x10#8 ++ BitVec.ofNat 8 dr ++ BitVec.ofNat 8 dg ++ BitVec.ofNat 8 db))
  else .error .operandRange

/-- The state after a transaction, if there is one. -/
def nextState : Host.Outcome State Fault Refusal → Except LineError State
  | .next t => .ok t
  | .fault _ => .error .stuck
  | .refused _ => .error .stuck

/-- SUBMIT with operands checked, as the next transaction. -/
def runSubmit (dr dg db : Nat) (s : State) : Except LineError State :=
  match assembleSubmit dr dg db with
  | .ok a => nextState (hostAccess a s)
  | .error e => .error e

/-- The block runs, with no host access, until NOW has reached `target` and no expiry is enabled (R79), in at most `fuel`
moves. -/
def waitUntil : Nat → Nat → State → Except LineError State
  | 0, target, s => if target ≤ s.now ∧ s.expiryEnabled = false then .ok s else .error .stuck
  | fuel + 1, target, s =>
    if target ≤ s.now ∧ s.expiryEnabled = false then .ok s
    else
      match blockMove s with
      | .next t => waitUntil fuel target t
      | .fault _ => .error .stuck
      | .refused _ => .error .stuck

/-- The SCHED bit of the last STATUS read (41_commands.md R103). -/
def repliedSched (s : State) : Bool :=
  match s.reply with
  | some (b :: _) => b.getLsbD 0
  | some [] => false
  | none => false

/-- Run one line, each of its host accesses as the next transaction. WAIT is given the moves of `n + 1` instants of at most
seven expiries and a tick each (42_sequencer.md R121, assumption 18). POLLSUB checks its operands only when it reaches its
SUBMIT, after a read of SCHED = 0: DESIGN CHOICE, R77 names the error for SUBMIT alone (assumption 22). -/
def runLine (l : HostLine) (s : State) : Except LineError State :=
  match l with
  | .nop => nextState (hostAccess (cmdWrite 0#32) s)
  | .submit dr dg db => runSubmit dr dg db s
  | .start => nextState (hostAccess (cmdWrite 0x20000000#32) s)
  | .cmd w => nextState (hostAccess (cmdWrite w) s)
  | .rd r => nextState (hostAccess (.read (r.offset : Int) 4) s)
  | .submitF r g b =>
    match toDuty r, toDuty g, toDuty b with
    | some dr, some dg, some db => runSubmit dr dg db s
    | _, _, _ => .error .noDuty
  | .off => runSubmit 0 0 0 s
  | .full => runSubmit 100 100 100 s
  | .pollSub dr dg db =>
    match nextState (hostAccess (.read 0x04 4) s) with
    | .ok t => if repliedSched t then .ok t else runSubmit dr dg db t
    | .error e => .error e
  | .wait n => waitUntil (8 * (n + 1)) (s.now + n) s

end Sys2Proof.Machine
end

