-- ==== Sys2Proof/Safety.lean ====
section
/-! DEFINITION. What a good state and a safe run are: the spec's invariants (10_state.md R42 to R45), the clock of a frame
(42_sequencer.md R123, R124), one pulse a line a frame (R131), the host discipline under which no fault is raised
(60_exceptions.md R133, 70_reset_and_hazards.md R171), and the fair infinite runs (R172). -/

namespace Sys2Proof.Machine

/-- A frame as BUILD_FRAME returns it (R43): the sentinel last, each line once, duties non-decreasing and at most 100. -/
structure Frame.WellFormed (f : Frame) : Prop where
  sentinel : f.e3 = ⟨none, 100#7⟩
  lines : [f.e0.line, f.e1.line, f.e2.line].Perm [some .l0, some .l1, some .l2]
  sorted01 : f.e0.duty.toNat ≤ f.e1.duty.toNat
  sorted12 : f.e1.duty.toNat ≤ f.e2.duty.toNat
  capped : f.e2.duty.toNat ≤ 100

/-- The event is a SwapEv. -/
def Event.isSwap : Event → Bool
  | .swap _ => true
  | .line _ _ _ | .arm _ _ _ | .submit _ _ _ _ | .fault _ _ => false

/-- The event is a SubmitEv. -/
def Event.isSubmit : Event → Bool
  | .submit _ _ _ _ => true
  | .line _ _ _ | .arm _ _ _ | .swap _ | .fault _ _ => false

/-- The event is an ArmEv. -/
def Event.isArm : Event → Bool
  | .arm _ _ _ => true
  | .line _ _ _ | .swap _ | .submit _ _ _ _ | .fault _ _ => false

/-- The event is a LineEv that drives the line to the level. -/
def Event.drives (k : Line) (level : Bool) : Event → Bool
  | .line _ k' level' => decide (k' = k) && level' == level
  | .arm _ _ _ | .swap _ | .submit _ _ _ _ | .fault _ _ => false

/-- The time of an event (R40). -/
def Event.time : Event → Nat
  | .line t _ _ => t
  | .arm t _ _ => t
  | .swap t => t
  | .submit t _ _ _ => t
  | .fault t _ => t

/-- A swap has happened since reset. -/
def State.swapped (s : State) : Bool := s.trace.any Event.isSwap

/-- A SUBMIT has happened since reset. -/
def State.submitted (s : State) : Bool := s.trace.any Event.isSubmit

/-- The state before the first swap: the active frame as reset left it, exhausted, and all lines low (R42, R44). -/
structure BeforeFirstSwap (s : State) : Prop where
  act : s.act = Frame.reset
  cursor : s.actCur = 4#3
  curLine : s.curLine = none
  low : s.lines = ⟨false, false, false⟩

/-- The state after a swap: a well-formed active frame, the current line the last dequeued entry's (R42), and each line high
until the step after its own entry (R44). -/
structure AfterSwap (s : State) : Prop where
  frame : s.act.WellFormed
  curLine : s.curLine = (s.act.get (s.actCur.toNat - 1)).line
  levels : ∀ j k, j < 3 → (s.act.get j).line = some k → (s.lines.get k = true ↔ s.actCur.toNat ≤ j + 1)

/-- The invariants of 10_state.md R42 to R45, and of 70_reset_and_hazards.md R162 for a block that is not started. -/
structure Inv (s : State) : Prop where
  cursorLow : 1 ≤ s.actCur.toNat
  cursorHigh : s.actCur.toNat ≤ 4
  exhausted : s.actCur = 4#3 → s.curLine = none
  before : s.swapped = false → BeforeFirstSwap s
  after : s.swapped = true → AfterSwap s
  notSubmitted : s.submitted = false → s.pnd = Frame.reset ∧ s.pndV = false
  pending : s.submitted = true → s.pnd.WellFormed
  notStarted : s.started = false → s.tarmed = false ∧ s.tcnt = 0#16 ∧ s.swapped = false
  armed : s.started = true → s.tarmed = true

/-- The last ArmEv of a trace: its time, count and kind. -/
def lastArm (tr : List Event) : Option (Nat × Nat × ArmKind) :=
  tr.foldl (fun last e => match e with | .arm t n k => some (t, n, k) | .line _ _ _ | .swap _ | .submit _ _ _ _ | .fault _ _ => last) none

/-- The time of the last SwapEv of a trace, the start of the frame. -/
def lastSwap (tr : List Event) : Option Nat :=
  tr.foldl (fun last e => match e with | .swap t => some t | .line _ _ _ | .arm _ _ _ | .submit _ _ _ _ | .fault _ _ => last) none

/-- The sum of the duties of the first `j` entries. -/
def dutySum (f : Frame) : Nat → Nat
  | 0 => 0
  | j + 1 => dutySum f j + (f.get j).duty.toNat

/-- When entry `j` of a frame is dequeued, in time units from the swap; for `j = 4`, when the frame ends (R123, R124). -/
def dequeueOffset (ref : ArmReference) (f : Frame) (j : Nat) : Nat :=
  match ref with
  | .frameStart => prevDuty f j * Config.stepDuration
  | .armTime => dutySum f j * Config.stepDuration

/-- What the kind of the arm that is counting says of the state: an idle arm counts IDLE_DELAY on an exhausted frame, an
entry arm runs from its entry's dequeue to the next one's. -/
def ClockKind (s : State) (t n : Nat) : ArmKind → Prop
  | .idle => s.actCur = 4#3 ∧ n = s.cfg.idleDelay
  | .entry j l d dl =>
    s.actCur.toNat = j + 1 ∧ l = (s.act.get j).line ∧ d = (s.act.get j).duty.toNat ∧ dl = d * Config.stepDuration ∧
      ∃ t0, lastSwap s.trace = some t0 ∧ t = t0 + dequeueOffset s.cfg.armReference s.act j ∧
        t + n = t0 + dequeueOffset s.cfg.armReference s.act (j + 1)

/-- The clock of the block: while no fault freezes the timer, it fires exactly its count after the arm, and the arms of a
frame follow the frame's timing (R123 under FRAME_START, R124 under ARM_TIME). -/
def Clock (s : State) : Prop :=
  s.fault = .noFault → s.tarmed = true →
    ∃ t n k, lastArm s.trace = some (t, n, k) ∧ s.now + s.tcnt.toNat = t + n ∧ s.tcnt.toNat ≤ n ∧ ClockKind s t n k

/-- Each line has risen once a swap, and fallen once a rise but for a rise it is still high from (R131). -/
def Pulses (s : State) : Prop :=
  ∀ k, s.trace.countP (Event.drives k true) = s.trace.countP Event.isSwap ∧
    s.trace.countP (Event.drives k false) + (if s.lines.get k then 1 else 0) = s.trace.countP (Event.drives k true)

/-- The trace is in time order and holds nothing of the future. -/
def TraceOrdered (s : State) : Prop :=
  (s.trace.map Event.time).Pairwise (· ≤ ·) ∧ ∀ e ∈ s.trace, e.time ≤ s.now

/-- The turns to come keep the host's duties (70_reset_and_hazards.md R171): every access that reaches the block is a
register read or a defined command, and START is written at most once a run (`started` says whether it has been). -/
def disciplined : Bool → List Turn → Bool
  | _, [] => true
  | started, .block :: rest => disciplined started rest
  | _, .reset :: rest => disciplined false rest
  | started, .access a :: rest =>
    match decode a with
    | .error r => decide (r = .outsideWindow) && disciplined started rest
    | .ok .start => !started && disciplined true rest
    | .ok (.illegal _) => false
    | .ok .nop | .ok (.submit _ _ _) | .ok .rdStatus | .ok .rdTimer => disciplined started rest
    | .ok .rdAct0 | .ok .rdAct1 | .ok .rdAct2 | .ok .rdAct3 => disciplined started rest
    | .ok .rdPnd0 | .ok .rdPnd1 | .ok .rdPnd2 | .ok .rdPnd3 => disciplined started rest
    | .ok .expire | .ok .timeTick => disciplined started rest

/-- The turns of the host's next `m` batches after the schedule. -/
def HostLater.batches : HostLater → Nat → List Turn
  | .silent, _ => []
  | .goesOn n, m => (List.range m).flatMap fun i => Config.hostTurns (n + i)

/-- A safe state (60_exceptions.md R139: a faulted state is bad): no fault, and a host that keeps its duties for ever. -/
def Safe (s : State) : Prop :=
  s.fault = .noFault ∧ ∀ m, disciplined s.started (s.schedule ++ s.hostLater.batches m) = true

/-- The transaction that a turn stands for leads from `s` to `t`, whatever turns the model holds to come. -/
def Performs (turn : Turn) (s t : State) : Prop :=
  ∃ schedule hostLater, takeTurn turn { s with schedule := schedule, hostLater := hostLater } = .next t

/-- A fair infinite run (70_reset_and_hazards.md R172): the states `σ`, with the turn `τ n` leading from `σ n` to `σ (n + 1)`.
The host is any host whose accesses meet (c), one that submits for ever too. A reset ends a run (R155), so a run holds none. -/
structure FairRun (σ : Nat → State) (τ : Nat → Turn) : Prop where
  moves : ∀ n, Performs (τ n) (σ n) (σ (n + 1))
  oneRun : ∀ n, τ n ≠ .reset
  /-- R172 (a): an enabled expiry is taken, unless a fault disables it first. -/
  expiryTaken : ∀ n, (σ n).expiryEnabled = true → ∃ m, n ≤ m ∧ (τ m = .block ∨ (σ m).expiryEnabled = false)
  /-- R172 (b): an enabled time tick is taken, unless a START disables it first. -/
  tickTaken : ∀ n, (σ n).expiryEnabled = false → ∃ m, n ≤ m ∧ (τ m = .block ∨ (σ m).expiryEnabled = true)
  /-- R172 (c): the host makes finitely many accesses in any one instant. -/
  hostFinite : ∀ instant, ∃ bound, ∀ n, bound ≤ n → (σ n).now = instant → τ n = .block

end Sys2Proof.Machine
end

