-- ==== Sys2Proof/Certificates/Slice0/Obligations.lean ====
section
/-! DEFINITION. The statements for the provers, with the spec's own tables written out as numbers (Sys2Proof.Spec) so that a
statement does not repeat the model's definition. -/

namespace Sys2Proof.Spec

open Sys2Proof.Machine

/-- A flag as a number. -/
def bit (b : Bool) : Nat := if b then 1 else 0

/-- The number of a line, NONE being 3 (10_state.md R25). -/
def lineNumber : Option Line → Nat
  | some .l0 => 0
  | some .l1 => 1
  | some .l2 => 2
  | none => 3

/-- The number of a fault (60_exceptions.md R134). -/
def faultNumber : FaultCode → Nat
  | .noFault => 0
  | .illegalCmd => 1
  | .startTwice => 2
  | .badAccess => 3

/-- STATUS as a sum of its fields (10_state.md R36). -/
def statusValue (s : State) : Nat :=
  bit s.pndV + 2 * bit s.started + 4 * s.actCur.toNat + 32 * lineNumber s.curLine + 128 * bit s.lines.l0
    + 256 * bit s.lines.l1 + 512 * bit s.lines.l2 + 1024 * bit s.tarmed + 4096 * faultNumber s.fault

/-- ACTi or PNDi as a sum of its fields (R38, R39). -/
def entryValue (e : Entry) : Nat := e.duty.toNat + 256 * lineNumber e.line

/-- The value of the readable register at an offset, none at every other offset (R34). -/
def registerValue (s : State) : Nat → Option Nat
  | 0x04 => some (statusValue s)
  | 0x08 => some s.tcnt.toNat
  | 0x10 => some (entryValue s.act.e0)
  | 0x14 => some (entryValue s.act.e1)
  | 0x18 => some (entryValue s.act.e2)
  | 0x1C => some (entryValue s.act.e3)
  | 0x20 => some (entryValue s.pnd.e0)
  | 0x24 => some (entryValue s.pnd.e1)
  | 0x28 => some (entryValue s.pnd.e2)
  | 0x2C => some (entryValue s.pnd.e3)
  | _ => none

/-- The four little-endian lanes of a 32-bit value (20_memory.md R53). -/
def lanes4 (v : Nat) : List Byte :=
  [BitVec.ofNat 8 v, BitVec.ofNat 8 (v / 2 ^ 8), BitVec.ofNat 8 (v / 2 ^ 16), BitVec.ofNat 8 (v / 2 ^ 24)]

/-- An access of a size, alignment, offset or direction the window does not take (20_memory.md R49, R144 (2)). -/
def badShape (s : State) : Access → Prop
  | .read rel n => n ≠ 4 ∨ registerValue s rel.toNat = none
  | .write rel data => data.length ≠ 4 ∨ rel ≠ 0

/-- `DUTY * STEP_DURATION` of an entry, its deadline from frame start (42_sequencer.md R107). -/
def deadline (e : Entry) : Nat := e.duty.toNat * 100

/-- The events of a turn-off (42_sequencer.md R108, R116). -/
def turnOffEvents (s : State) : List Event :=
  match s.curLine with
  | some k => [.line s.now k false]
  | none => []

end Sys2Proof.Spec

section

open Sys2Proof Sys2Proof.Machine Sys2Proof.Spec

/-! ### Encoding and decoding -/

/-- Decoding an encoded well-formed instruction gives it back, for every operand value (30_encoding.md R66 to R75). -/
def Obligations.DecodeInvertsEncode : Prop :=
  ∀ (i : Instr) (a : Access), i.wf = true → encode i = some a → decode a = .ok i

/-- Every access the decoder accepts is the encoding of the well-formed instruction it reads: no two accesses mean the same,
and no bit is ignored (R66, R73). -/
def Obligations.EncodeInvertsDecode : Prop :=
  ∀ (a : Access) (i : Instr), decode a = .ok i → encode i = some a ∧ i.wf = true

/-- R66, R68, R70: the verdict on every 32-bit command word, by the match values of the spec. -/
def Obligations.CommandWordVerdict : Prop :=
  ∀ w : Word, decode (.write 0 (lanes4 w.toNat)) = .ok
    (if w.toNat = 0x00000000 then .nop
     else if w.toNat / 2 ^ 24 = 0x10 then
       .submit (BitVec.ofNat 8 (w.toNat / 2 ^ 16)) (BitVec.ofNat 8 (w.toNat / 2 ^ 8)) (BitVec.ofNat 8 w.toNat)
     else if w.toNat = 0x20000000 then .start
     else .illegal w)

/-- Words of the spec's tables, byte by byte, decode as the spec says (95_test_vectors.md 2.3, 2.6; 10_state.md R34). -/
def Obligations.SpecWordsDecode : Prop :=
  decode (.write 0 [0x00#8, 0x00#8, 0x00#8, 0x00#8]) = .ok .nop ∧
  decode (.write 0 [0x32#8, 0x14#8, 0x50#8, 0x10#8]) = .ok (.submit 80#8 20#8 50#8) ∧
  decode (.write 0 [0x00#8, 0x00#8, 0x00#8, 0x20#8]) = .ok .start ∧
  decode (.write 0 [0xFF#8, 0xFF#8, 0x00#8, 0x20#8]) = .ok (.illegal 0x2000FFFF#32) ∧
  decode (.read 0x04 4) = .ok .rdStatus ∧
  decode (.read 0x08 4) = .ok .rdTimer ∧
  decode (.read 0x1C 4) = .ok .rdAct3 ∧
  decode (.read 0x20 4) = .ok .rdPnd0

/-- The two internal events have no encoding, and no access decodes to one (R76). -/
def Obligations.EventsHaveNoEncoding : Prop :=
  encode .expire = none ∧ encode .timeTick = none ∧ ∀ a, decode a ≠ .ok .expire ∧ decode a ≠ .ok .timeTick

/-- 20_memory.md R53: byte lane `i` carries bits `[8*i+7 : 8*i]`. -/
def Obligations.ByteLanesLittleEndian : Prop :=
  ∀ (w : Word) (i : Nat), i < 4 → (lanesOfWord w)[i]? = some (BitVec.ofNat 8 (w.toNat / 2 ^ (8 * i)))

/-! ### The step and the bus -/

/-- Whose turn it is, which is the model's own convention (assumption 1): the schedule's first turn; then, with a silent host,
the block's; with a host that goes on, the turns of its next batch and a move of the block. Taking a turn writes nothing else. -/
def Obligations.TurnsOfTheHost : Prop :=
  ∀ s : State,
    (∀ turn rest, s.schedule = turn :: rest → s.nextTurn = (turn, { s with schedule := rest })) ∧
    (s.schedule = [] → s.hostLater = .silent → s.nextTurn = (.block, s)) ∧
    (∀ n, s.schedule = [] → s.hostLater = .goesOn n →
      s.nextTurn = State.nextTurn { s with schedule := Config.hostTurns n ++ [.block], hostLater := .goesOn (n + 1) })

/-- When the next turn is an access that decodes to an instruction, the step is that instruction's meaning, with the turn
taken off those to come (20_memory.md R49). -/
def Obligations.StepRunsDecodedAccess : Prop :=
  ∀ (s u : State) (a : Access) (i : Instr), s.nextTurn = (.access a, u) → decode a = .ok i → step s = exec i u

/-- When the next turn is the block's, the step is the meaning of the one internal event that is enabled (60_exceptions.md
R145, 42_sequencer.md R119, R120). -/
def Obligations.StepRunsEnabledEvent : Prop :=
  ∀ s u : State, s.nextTurn = (.block, u) →
    step s = exec (if s.tarmed = true ∧ s.tcnt = 0#16 ∧ s.fault = .noFault then .expire else .timeTick) u

/-- 20_memory.md R47: a host address reaches the block just when it is in the window, and its offset is its distance from
BASE, 0 to 63. -/
def Obligations.WindowDecode : Prop :=
  ∀ base a : Nat, (inWindow (relOf base a) = true ↔ base ≤ a ∧ a < base + 64) ∧
    (inWindow (relOf base a) = true → (relOf base a).toNat = a - base ∧ a - base ≤ 63) ∧
    ∀ n data, (decode (.read (relOf base a) n) = .error .outsideWindow ↔ ¬(base ≤ a ∧ a < base + 64)) ∧
      (decode (.write (relOf base a) data) = .error .outsideWindow ↔ ¬(base ≤ a ∧ a < base + 64))

/-- An access outside the window leaves the block as it is. That the step goes on is the model's reading of R47
(assumption 4). -/
def Obligations.OutsideWindowLeavesBlock : Prop :=
  ∀ (s u : State) (a : Access), s.nextTurn = (.access a, u) → (a.rel < 0 ∨ 64 ≤ a.rel) → step s = .next u

/-- 20_memory.md R48, R51, R52 with 60_exceptions.md R136: an access of the wrong size, alignment, offset or direction
records BAD_ACCESS and does nothing else, and a read then returns 0. -/
def Obligations.BadAccessFaults : Prop :=
  ∀ (s u : State) (a : Access),
    s.nextTurn = (.access a, u) → 0 ≤ a.rel → a.rel < 64 → u.fault = .noFault → badShape u a →
    step s = .next
      { u with
        fault := .badAccess
        trace := u.trace ++ [.fault u.now .badAccess]
        reply := match a with | .read _ n => some (List.replicate n 0#8) | .write _ _ => u.reply }

/-- 10_state.md R34, 20_memory.md R54: an aligned 32-bit read of a readable register gives its value and changes nothing
else, whether or not the block is in a fault. -/
def Obligations.RegisterReadAnswers : Prop :=
  ∀ (s u : State) (off v : Nat),
    s.nextTurn = (.access (.read off 4), u) → registerValue u off = some v →
    step s = .next { u with reply := some (lanes4 v) }

/-! ### Register reads -/

/-- R99: RD STATUS. -/
def Obligations.RdStatusValue : Prop :=
  ∀ s : State, exec .rdStatus s = .next { s with reply := some (lanes4 (statusValue s)) }

/-- R100: RD TIMER. -/
def Obligations.RdTimerValue : Prop :=
  ∀ s : State, exec .rdTimer s = .next { s with reply := some (lanes4 s.tcnt.toNat) }

/-- R101: RD ACT0 to RD ACT3. -/
def Obligations.RdActValues : Prop :=
  ∀ s : State,
    exec .rdAct0 s = .next { s with reply := some (lanes4 (entryValue s.act.e0)) } ∧
    exec .rdAct1 s = .next { s with reply := some (lanes4 (entryValue s.act.e1)) } ∧
    exec .rdAct2 s = .next { s with reply := some (lanes4 (entryValue s.act.e2)) } ∧
    exec .rdAct3 s = .next { s with reply := some (lanes4 (entryValue s.act.e3)) }

/-- R102: RD PND0 to RD PND3, whatever PND_V is. -/
def Obligations.RdPndValues : Prop :=
  ∀ s : State,
    exec .rdPnd0 s = .next { s with reply := some (lanes4 (entryValue s.pnd.e0)) } ∧
    exec .rdPnd1 s = .next { s with reply := some (lanes4 (entryValue s.pnd.e1)) } ∧
    exec .rdPnd2 s = .next { s with reply := some (lanes4 (entryValue s.pnd.e2)) } ∧
    exec .rdPnd3 s = .next { s with reply := some (lanes4 (entryValue s.pnd.e3)) }

/-! ### Commands -/

/-- R93: NOP changes no state and emits no event. -/
def Obligations.NopChangesNothing : Prop :=
  ∀ s : State, exec .nop s = .next s

/-- R94, with R71 and R91: SUBMIT puts a frame of the saturated duties into PND, in an order that does not decrease with the
sentinel last, sets PND_V, records the event, and writes nothing else. The draw counted is the model's (assumption 6). -/
def Obligations.SubmitQueuesSortedFrame : Prop :=
  ∀ (fr fg fb : Byte) (s : State), s.fault = .noFault →
    ∃ f : Frame,
      exec (.submit fr fg fb) s = .next
        { s with
          pnd := f
          pndV := true
          draws := s.draws + 1
          trace := s.trace ++ [.submit s.now (min fr.toNat 100) (min fg.toNat 100) (min fb.toNat 100)] } ∧
      f.e3 = ⟨none, 100#7⟩ ∧
      [(f.e0.line, f.e0.duty.toNat), (f.e1.line, f.e1.duty.toNat), (f.e2.line, f.e2.duty.toNat)].Perm
        [(some .l0, min fr.toNat 100), (some .l1, min fg.toNat 100), (some .l2, min fb.toNat 100)] ∧
      f.e0.duty.toNat ≤ f.e1.duty.toNat ∧ f.e1.duty.toNat ≤ f.e2.duty.toNat

/-- R81, R82: over all tie choices, the sorter gives exactly the non-decreasing permutations of its inputs. -/
def Obligations.SorterIsTheRelation : Prop :=
  ∀ v0 v1 v2 o0 o1 o2 : Entry,
    (∃ d : TieDraw, sort3 d v0 v1 v2 = (o0, o1, o2)) ↔
      [o0, o1, o2].Perm [v0, v1, v2] ∧ o0.duty.toNat ≤ o1.duty.toNat ∧ o1.duty.toNat ≤ o2.duty.toNat

/-- R83, last part: with three distinct keys no tie choice matters. -/
def Obligations.DistinctKeysSortOneWay : Prop :=
  ∀ (d : TieDraw) (v0 v1 v2 : Entry), v0.duty ≠ v1.duty → v0.duty ≠ v2.duty → v1.duty ≠ v2.duty →
    sort3 d v0 v1 v2 = sort3Ref v0 v1 v2

/-- R85 (a), (b): the reference network sorts, and tied inputs leave in their input order, as the stable insertion sort does. -/
def Obligations.ReferenceNetworkIsStable : Prop :=
  ∀ v0 v1 v2 : Entry,
    [(sort3Ref v0 v1 v2).1, (sort3Ref v0 v1 v2).2.1, (sort3Ref v0 v1 v2).2.2]
      = [v0, v1, v2].insertionSort (fun a b => a.duty.toNat ≤ b.duty.toNat)

/-- R95: a SUBMIT replaces the queued frame whole, so nothing of the frame before it is left. That the two frames agree in
their tie order too is the model's choice, whose draw depends on the counter of draws alone (assumption 6): R83 leaves the
order of ties free at each SUBMIT. -/
def Obligations.SubmitReplacesQueuedFrame : Prop :=
  ∀ (fr fg fb : Byte) (s : State) (p : Frame) (v : Bool), s.fault = .noFault →
    exec (.submit fr fg fb) { s with pnd := p, pndV := v } = exec (.submit fr fg fb) s

/-- R96 with R111: START with nothing pending arms the idle delay and changes no line. -/
def Obligations.StartIdles : Prop :=
  ∀ s : State, s.fault = .noFault → s.started = false → 4 ≤ s.actCur.toNat → s.pndV = false →
    exec .start s = .next
      { s with
        started := true
        tcnt := BitVec.ofNat 16 s.cfg.idleDelay
        tarmed := true
        trace := s.trace ++ [.arm s.now s.cfg.idleDelay .idle] }

/-- R96 with R110: START with a frame pending swaps it in at once. CUR_LINE = NONE is R42's, of an exhausted frame. -/
def Obligations.StartSwapsPendingFrame : Prop :=
  ∀ s : State, s.fault = .noFault → s.started = false → 4 ≤ s.actCur.toNat → s.pndV = true → s.curLine = none →
    exec .start s = .next
      { s with
        started := true
        pndV := false
        lines := ⟨true, true, true⟩
        act := s.pnd
        actCur := 1#3
        curLine := s.pnd.e0.line
        tcnt := BitVec.ofNat 16 (deadline s.pnd.e0)
        tarmed := true
        trace := s.trace ++
          [.line s.now .l0 true, .line s.now .l1 true, .line s.now .l2 true, .swap s.now,
           .arm s.now (deadline s.pnd.e0) (.entry 0 s.pnd.e0.line s.pnd.e0.duty.toNat (deadline s.pnd.e0))] }

/-- R96, R105: the STEP of START is the STEP of an expiry, in every state. -/
def Obligations.StartPerformsTheStep : Prop :=
  ∀ s : State, s.fault = .noFault → s.started = false →
    exec .start s = exec .expire { s with started := true, tarmed := true, tcnt := 0#16 }

/-- R97: START when STARTED = 1 is a fault, with no other effect. -/
def Obligations.SecondStartFaults : Prop :=
  ∀ s : State, s.fault = .noFault → s.started = true →
    exec .start s = .next { s with fault := .startTwice, trace := s.trace ++ [.fault s.now .startTwice] }

/-- R98: an ILLEGAL word raises ILLEGAL_CMD and nothing else. -/
def Obligations.IllegalWordFaults : Prop :=
  ∀ (w : Word) (s : State), s.fault = .noFault →
    exec (.illegal w) s = .next { s with fault := .illegalCmd, trace := s.trace ++ [.fault s.now .illegalCmd] }

/-! ### The sequencer and the timer -/

/-- R107 with R113: an expiry in a frame turns off the line active before, arms for the entry dequeued, makes its line the
current one and advances the cursor; nothing else is written. `prev <= d` is R114's. -/
def Obligations.ExpireDequeuesEntry : Prop :=
  ∀ (s : State) (j d prev n : Nat) (e : Entry),
    s.tarmed = true → s.tcnt = 0#16 → s.fault = .noFault → s.actCur.toNat = j → j < 4 →
    s.act.get j = e → e.duty.toNat = d → (if j = 0 then 0 else (s.act.get (j - 1)).duty.toNat) = prev → prev ≤ d →
    n = (match s.cfg.armReference with | .frameStart => (d - prev) * 100 | .armTime => d * 100) →
    ∃ levels : Levels,
      exec .expire s = .next
        { s with
          lines := levels
          tcnt := BitVec.ofNat 16 n
          tarmed := true
          curLine := e.line
          actCur := BitVec.ofNat 3 (j + 1)
          trace := s.trace ++ turnOffEvents s ++ [.arm s.now n (.entry j e.line d (d * 100))] } ∧
      ∀ k, levels.get k = if s.curLine = some k then false else s.lines.get k

/-- R110 with R107: an expiry on an exhausted frame with a frame pending sets the lines high, loads ACT from PND and dequeues
its first entry; PND keeps its content. CUR_LINE = NONE is R42's. -/
def Obligations.ExpireSwapsFrame : Prop :=
  ∀ s : State, s.tarmed = true → s.tcnt = 0#16 → s.fault = .noFault → 4 ≤ s.actCur.toNat → s.pndV = true →
    s.curLine = none →
    exec .expire s = .next
      { s with
        pndV := false
        lines := ⟨true, true, true⟩
        act := s.pnd
        actCur := 1#3
        curLine := s.pnd.e0.line
        tcnt := BitVec.ofNat 16 (deadline s.pnd.e0)
        tarmed := true
        trace := s.trace ++
          [.line s.now .l0 true, .line s.now .l1 true, .line s.now .l2 true, .swap s.now,
           .arm s.now (deadline s.pnd.e0) (.entry 0 s.pnd.e0.line s.pnd.e0.duty.toNat (deadline s.pnd.e0))] }

/-- R111: an expiry with nothing active and nothing pending re-arms the idle delay, drives no line and writes nothing else;
the delay is a positive 16-bit count (R9). -/
def Obligations.ExpireIdles : Prop :=
  ∀ s : State, s.tarmed = true → s.tcnt = 0#16 → s.fault = .noFault → 4 ≤ s.actCur.toNat → s.pndV = false →
    exec .expire s = .next
      { s with
        tcnt := BitVec.ofNat 16 s.cfg.idleDelay
        trace := s.trace ++ [.arm s.now s.cfg.idleDelay .idle] } ∧
    1 ≤ s.cfg.idleDelay ∧ s.cfg.idleDelay ≤ 65535

/-- R119, the effect: a time tick, whenever no enabled expiry is pending. -/
def Obligations.TimeTickEffect : Prop :=
  ∀ s : State, ¬(s.tarmed = true ∧ s.tcnt = 0#16 ∧ s.fault = .noFault) →
    exec .timeTick s = .next
      { s with
        now := s.now + 1
        tcnt := if s.fault = .noFault ∧ s.tarmed = true ∧ 0 < s.tcnt.toNat then BitVec.ofNat 16 (s.tcnt.toNat - 1)
          else s.tcnt }

/-- R119, R120: exactly one of the two internal events has a transition in each state, by R120's condition. That the other
is refused is how the model says that it is not enabled (assumption 9). -/
def Obligations.EventsExclusive : Prop :=
  ∀ s : State,
    (exec .expire s = .refused (.notEnabled "EXPIRE") ↔ ¬(s.tarmed = true ∧ s.tcnt = 0#16 ∧ s.fault = .noFault)) ∧
    (exec .timeTick s = .refused (.notEnabled "TIME_TICK") ↔ (s.tarmed = true ∧ s.tcnt = 0#16 ∧ s.fault = .noFault))

/-- R115: every STEP arms the timer exactly once. -/
def Obligations.OneArmPerStep : Prop :=
  (∀ s : State, s.tarmed = true → s.tcnt = 0#16 → s.fault = .noFault →
    ∃ t, exec .expire s = .next t ∧ t.trace.countP Event.isArm = s.trace.countP Event.isArm + 1) ∧
  (∀ s : State, s.fault = .noFault → s.started = false →
    ∃ t, exec .start s = .next t ∧ t.trace.countP Event.isArm = s.trace.countP Event.isArm + 1)

/-- R114: on a well-formed frame no countdown is negative or above 10000, and under FRAME_START the four sum to the frame. -/
def Obligations.CountdownRange : Prop :=
  ∀ f : Frame, f.WellFormed →
    (∀ j, j < 4 → prevDuty f j ≤ (f.get j).duty.toNat ∧
      ∀ ref, countdown ref (f.get j).duty.toNat (prevDuty f j) ≤ 10000) ∧
    countdown .frameStart (f.get 0).duty.toNat (prevDuty f 0) + countdown .frameStart (f.get 1).duty.toNat (prevDuty f 1)
      + countdown .frameStart (f.get 2).duty.toNat (prevDuty f 2) + countdown .frameStart (f.get 3).duty.toNat (prevDuty f 3)
      = 10000

/-- R129: what an expiry inside a frame does depends on nothing that a SUBMIT writes. -/
def Obligations.RunningFrameIgnoresPending : Prop :=
  ∀ (s : State) (p : Frame) (v : Bool), s.tarmed = true → s.tcnt = 0#16 → s.fault = .noFault → s.actCur.toNat < 4 →
    ∃ t, exec .expire s = .next t ∧ exec .expire { s with pnd := p, pndV := v } = .next { t with pnd := p, pndV := v }

/-! ### Whole-machine rules over all instructions -/

/-- 10_state.md R23, R24, R27: ACT is written only by a swap, PND only by SUBMIT, PND_V set only by SUBMIT and cleared only by
a swap. -/
def Obligations.FrameRegisterWriters : Prop :=
  ∀ (i : Instr) (s t : State), exec i s = .next t →
    ((t.act ≠ s.act ∨ (s.pndV = true ∧ t.pndV = false)) →
      (i = .start ∨ i = .expire) ∧ 4 ≤ s.actCur.toNat ∧ s.pndV = true ∧ t.act = s.pnd ∧ t.pndV = false) ∧
    ((t.pnd ≠ s.pnd ∨ (s.pndV = false ∧ t.pndV = true)) → ∃ fr fg fb, i = .submit fr fg fb)

/-- 70_reset_and_hazards.md R167: NOW changes only in a time tick. -/
def Obligations.TimePassesOnlyInTicks : Prop :=
  ∀ (i : Instr) (s t : State), exec i s = .next t → (i = .timeTick → t.now = s.now + 1) ∧ (i ≠ .timeTick → t.now = s.now)

/-- 00_scope.md R9, R10: no step writes the parameters. That they travel in the state is the model's (assumption 5). -/
def Obligations.ParametersFixed : Prop :=
  ∀ s t : State, step s = .next t → t.cfg = s.cfg

/-- Every step answers a next state: the block never stops by itself (70_reset_and_hazards.md R170), and in a fault time
passes and reads are answered (60_exceptions.md R137, R138). That a fault, R170's one terminal state, is a state the step
goes on in is the model's choice (assumption 10), and so is that it goes on past an access outside the window
(assumption 4). -/
def Obligations.StepAlwaysAnswers : Prop :=
  ∀ s : State, ∃ t, step s = .next t

/-! ### Faults -/

/-- 60_exceptions.md R136: a transaction that raises a fault has no effect other than FAULT and its event, and a
read that raises one returns 0. -/
def Obligations.FaultsArePrecise : Prop :=
  ∀ s t : State, step s = .next t → s.fault = .noFault → t.fault ≠ .noFault →
    t = { s with
          fault := t.fault
          trace := s.trace ++ [.fault s.now t.fault]
          reply := t.reply
          schedule := t.schedule
          hostLater := t.hostLater } ∧
    (∀ rel n, s.nextTurn.1 = .access (.read rel n) → t.reply = some (List.replicate n 0#8)) ∧
    ((∀ rel n, s.nextTurn.1 ≠ .access (.read rel n)) → t.reply = s.reply)

/-- 60_exceptions.md R137: in a fault every write to the window is ignored, no STEP runs, and a time tick advances NOW
alone. -/
def Obligations.FaultHaltsBlock : Prop :=
  ∀ s u : State, u.fault ≠ .noFault →
    (∀ rel data, s.nextTurn = (.access (.write rel data), u) → 0 ≤ rel → rel < 64 → step s = .next u) ∧
    (s.nextTurn = (.block, u) → step s = .next { u with now := u.now + 1 })

/-- 60_exceptions.md R138: in a fault an aligned 32-bit read of a readable register is answered as usual, any other read of
the window returns 0, and neither raises anything. -/
def Obligations.FaultedReads : Prop :=
  ∀ (s u : State) (rel : Int) (n : Nat), u.fault ≠ .noFault →
    s.nextTurn = (.access (.read rel n), u) → 0 ≤ rel → rel < 64 →
    step s = .next
      { u with
        reply := some
          (match registerValue u rel.toNat with
            | some v => if n = 4 then lanes4 v else List.replicate n 0#8
            | none => List.replicate n 0#8) }

/-! ### Reset -/

/-- 10_state.md R41: the reset value of every state element and of the observation. -/
def Obligations.ResetValues : Prop :=
  (∀ j, j < 4 → State.reset.act.get j = ⟨some .l0, 0#7⟩ ∧ State.reset.pnd.get j = ⟨some .l0, 0#7⟩) ∧
  State.reset.actCur = 4#3 ∧ State.reset.pndV = false ∧ State.reset.curLine = none ∧
  (∀ k, State.reset.lines.get k = false) ∧ State.reset.tcnt = 0#16 ∧ State.reset.tarmed = false ∧
  State.reset.started = false ∧ State.reset.fault = .noFault ∧ State.reset.now = 0 ∧ State.reset.trace = []

/-- 70_reset_and_hazards.md R155: the reset input, from any state, a faulted one too; after it STATUS reads 0x70 and every
other readable register 0. -/
def Obligations.ResetRestoresBlock : Prop :=
  ∀ s u : State, s.nextTurn = (.reset, u) →
    ∃ t, step s = .next t ∧ t.act = State.reset.act ∧ t.pnd = State.reset.pnd ∧ t.actCur = 4#3 ∧ t.pndV = false ∧
      t.curLine = none ∧ t.lines = State.reset.lines ∧ t.tcnt = 0#16 ∧ t.tarmed = false ∧ t.started = false ∧
      t.fault = .noFault ∧ t.now = 0 ∧ t.trace = [] ∧ registerValue t 0x04 = some 0x70 ∧
      ∀ off v, off ≠ 0x04 → registerValue t off = some v → v = 0

/-! ### Invariants -/

/-- Reset meets the invariants of Safety.lean; it is safe under every host that keeps its duties. How the host's turns stand in
the state is the model's choice (assumption 1). -/
def Obligations.ResetMeetsInvariants : Prop :=
  Inv State.reset ∧ Clock State.reset ∧ Pulses State.reset ∧ TraceOrdered State.reset ∧
    ∀ turns later, (∀ m, disciplined false (turns ++ HostLater.batches later m) = true) →
      Safe { State.reset with schedule := turns, hostLater := later }

/-- 10_state.md R42 to R45 hold after every transaction of any agent. -/
def Obligations.StepKeepsInv : Prop :=
  ∀ s t : State, Inv s → step s = .next t → Inv t

/-- The frame clock (42_sequencer.md R123 under FRAME_START, R124 under ARM_TIME) is kept by every step. -/
def Obligations.StepKeepsClock : Prop :=
  ∀ s t : State, Inv s → Clock s → step s = .next t → Clock t

/-- 42_sequencer.md R131: one rise and one fall a line a frame, kept by every step. -/
def Obligations.StepKeepsPulses : Prop :=
  ∀ s t : State, Inv s → Pulses s → step s = .next t → Pulses t

/-- The trace stays in time order (10_state.md R40). -/
def Obligations.StepKeepsTraceOrder : Prop :=
  ∀ s t : State, TraceOrdered s → step s = .next t → TraceOrdered t

/-- 60_exceptions.md R133: under a host that keeps its duties (R171) no fault is ever raised. -/
def Obligations.DisciplinedHostNeverFaults : Prop :=
  ∀ s t : State, Safe s → step s = .next t → Safe t

/-! ### Timing -/

/-- 42_sequencer.md R123: under FRAME_START, while a frame runs and no expiry waits, each line is high exactly for its own
duty times 100 time units from the swap. -/
def Obligations.LineHighForItsDuty : Prop :=
  ∀ (s : State) (t0 t n j d dl : Nat) (l : Option Line) (e : Entry) (k : Line),
    Inv s → Clock s → s.cfg.armReference = .frameStart → s.fault = .noFault → s.tarmed = true → s.tcnt ≠ 0#16 →
    lastSwap s.trace = some t0 → lastArm s.trace = some (t, n, .entry j l d dl) →
    e ∈ [s.act.e0, s.act.e1, s.act.e2] → e.line = some k →
    (s.lines.get k = true ↔ s.now < t0 + e.duty.toNat * 100)

/-- 42_sequencer.md R123, R125: under FRAME_START the STEP that finds a running frame exhausted happens exactly FRAME_LENGTH
after its swap. -/
def Obligations.FrameLastsFrameLength : Prop :=
  ∀ (s : State) (t0 t n j d dl : Nat) (l : Option Line),
    Inv s → Clock s → s.cfg.armReference = .frameStart → s.fault = .noFault → s.tarmed = true → s.tcnt = 0#16 →
    s.actCur = 4#3 → lastSwap s.trace = some t0 → lastArm s.trace = some (t, n, .entry j l d dl) →
    s.now = t0 + 10000

/-- 42_sequencer.md R117, R119: with a host that makes no more accesses, an armed timer reaches its expiry after exactly TCNT
time units, with nothing else changed. FairRunsProgress says that it fires under every host. -/
def Obligations.ArmedTimerFires : Prop :=
  ∀ s : State, s.schedule = [] → s.hostLater = .silent → s.fault = .noFault → s.tarmed = true →
    Sys2Proof.core.run s.tcnt.toNat s = .next { s with now := s.now + s.tcnt.toNat, tcnt := 0#16 }

/-- 70_reset_and_hazards.md R172: on every fair run, under any host, NOW grows without bound, and every armed timer fires:
its expiry is taken exactly TCNT time units later, unless a fault has frozen it by then (60_exceptions.md R137). -/
def Obligations.FairRunsProgress : Prop :=
  ∀ (σ : Nat → State) (τ : Nat → Turn), FairRun σ τ → Inv (σ 0) →
    (∀ instant, ∃ n, instant < (σ n).now) ∧
    (∀ n, (σ n).tarmed = true →
      (∃ m, n ≤ m ∧ (σ m).now = (σ n).now + (σ n).tcnt.toNat ∧ (σ m).expiryEnabled = true ∧ τ m = .block) ∨
        (∃ m, n ≤ m ∧ (σ m).now ≤ (σ n).now + (σ n).tcnt.toNat ∧ (σ m).fault ≠ .noFault))

/-- 70_reset_and_hazards.md R172 (a), (b), (c) hold of every infinite run of the machine's own step with no reset in it,
whatever the free host does: its batches are finite and a move of the block follows each (assumption 1). -/
def Obligations.MachineRunsAreFair : Prop :=
  ∀ σ : Nat → State, Inv (σ 0) → (∀ n, step (σ n) = .next (σ (n + 1))) → (∀ n, (σ n).nextTurn.1 ≠ .reset) →
    FairRun σ fun n => (σ n).nextTurn.1

/-- 42_sequencer.md R121: at most seven STEPs in one instant, so with no host access eight moves of the block let time pass,
under either ARM_REFERENCE. -/
def Obligations.InstantChainBound : Prop :=
  ∀ s : State, Inv s → s.schedule = [] → s.hostLater = .silent → ∃ t, Sys2Proof.core.run 8 s = .next t ∧ s.now < t.now

/-- 30_encoding.md R79: WAIT n, from a state that meets the invariants, ends exactly n time units later with no expiry left to
take; the moves the model gives it (assumption 18) are enough. -/
def Obligations.WaitSettles : Prop :=
  ∀ (s : State) (n : Nat), Inv s →
    ∃ t, runLine (.wait n) s = .ok t ∧ t.now = s.now + n ∧ t.expiryEnabled = false

/-- 60_exceptions.md R145: a SUBMIT in the instant of a frame-exhausted expiry may fall on either side of it, with the two
outcomes of the rule's example. -/
def Obligations.SubmitRacesExpiry : Prop :=
  ∀ (s : State) (fr fg fb : Byte) (a : Access), s.tarmed = true → s.tcnt = 0#16 → s.fault = .noFault →
    4 ≤ s.actCur.toNat → s.pndV = false → encode (.submit fr fg fb) = some a →
    (∃ t, Sys2Proof.core.run 2 { s with schedule := [.access a, .block] } = .next t ∧ t.pndV = false ∧ t.actCur = 1#3 ∧
      t.act = t.pnd) ∧
    (∃ t, Sys2Proof.core.run 2 { s with schedule := [.block, .access a] } = .next t ∧ t.pndV = true ∧ t.act = s.act ∧
      t.actCur = s.actCur ∧ t.lines = s.lines ∧ t.tcnt.toNat = s.cfg.idleDelay)

/-! ### The producer -/

/-- 41_commands.md R90: TO_DUTY rounds `100 * num / den` to the nearest integer with halves away from zero and caps it to 0
to 100; a NaN or an infinity has none. -/
def Obligations.ToDutyRounds : Prop :=
  (∀ (num : Int) (den : Nat), 0 < den →
    (num < 0 → toDuty (.ratio num den) = some 0) ∧
    ((den : Int) < num → toDuty (.ratio num den) = some 100) ∧
    (0 ≤ num → num ≤ den →
      ∃ d, toDuty (.ratio num den) = some d ∧ 2 * (den : Int) * d ≤ 200 * num + den ∧ 200 * num + den < 2 * den * (d + 1))) ∧
  toDuty .nan = none ∧ toDuty .infinite = none

end
end

