-- ==== Sys2Proof/Laws/Decode.lean ====
section
/-! SUPPORT. The byte lanes of a word, and what the decoder of reads and of writes can answer. -/

namespace Sys2Proof

/-- The lanes of a word carry that word (20_memory.md R53). -/
@[simp] theorem wordOfLanes_lanesOfWord (w : Word) : wordOfLanes (lanesOfWord w) = some w := by
  simp only [lanesOfWord, wordOfLanes, Option.some.injEq]
  apply BitVec.eq_of_getElem_eq
  intro i hi
  simp only [BitVec.getElem_append]
  split_ifs <;> simp <;> grind

/-- Four lanes are the lanes of the word they carry. -/
theorem lanesOfWord_of_wordOfLanes {data : List Byte} {w : Word} (h : wordOfLanes data = some w) :
    lanesOfWord w = data := by
  unfold wordOfLanes at h
  split at h
  · rename_i b0 b1 b2 b3
    obtain rfl : b3 ++ b2 ++ b1 ++ b0 = w := by simpa using h
    simp only [lanesOfWord, List.cons.injEq, and_true]
    refine ⟨?_, ?_, ?_, ?_⟩ <;> apply BitVec.eq_of_getElem_eq <;> intro i hi <;>
      simp only [BitVec.getElem_extractLsb', BitVec.getLsbD_append] <;> grind
  · cases h

/-- A read the decoder accepts is a well-formed register read, at the offset that register is read at (10_state.md R34). -/
theorem decodeReadAt_ok {off : Nat} {i : Instr} (h : decodeReadAt off = .ok i) :
    encodeWord i = none ∧ readOffset i = some off ∧ i.wf = true := by
  unfold decodeReadAt at h
  repeat' split at h
  all_goals first
    | contradiction
    | (subst off; cases h; exact ⟨rfl, rfl, rfl⟩)

/-- The verdict on a command word is a well-formed instruction whose word is that word (30_encoding.md R66). -/
theorem decodeCommand_wf (w : Word) : (decodeCommand w).wf = true := by
  unfold decodeCommand
  split
  · rfl
  · split
    · rfl
    · split
      · rfl
      · simp_all [Instr.wf]

/-- A write the decoder accepts is a command written to CMD (20_memory.md R52). -/
theorem decodeWriteAt_ok {off : Nat} {w : Word} {i : Instr} (h : decodeWriteAt off w = .ok i) :
    off = 0 ∧ i = decodeCommand w := by
  unfold decodeWriteAt at h
  split at h
  · exact ⟨by assumption, by simpa using h.symm⟩
  · split at h <;> cases h

end Sys2Proof
end

