-- ==== Sys2Proof/Laws/State.lean ====
section
/-! SUPPORT. One lemma for each field of State under each named update, so that no later proof unfolds a record update. -/

namespace Sys2Proof.Machine

/-! ### State.emit -/

@[simp] theorem State.emit_act (e : Event) (s : State) :
    (s.emit e).act = s.act := rfl
@[simp] theorem State.emit_pnd (e : Event) (s : State) :
    (s.emit e).pnd = s.pnd := rfl
@[simp] theorem State.emit_actCur (e : Event) (s : State) :
    (s.emit e).actCur = s.actCur := rfl
@[simp] theorem State.emit_pndV (e : Event) (s : State) :
    (s.emit e).pndV = s.pndV := rfl
@[simp] theorem State.emit_curLine (e : Event) (s : State) :
    (s.emit e).curLine = s.curLine := rfl
@[simp] theorem State.emit_lines (e : Event) (s : State) :
    (s.emit e).lines = s.lines := rfl
@[simp] theorem State.emit_tcnt (e : Event) (s : State) :
    (s.emit e).tcnt = s.tcnt := rfl
@[simp] theorem State.emit_tarmed (e : Event) (s : State) :
    (s.emit e).tarmed = s.tarmed := rfl
@[simp] theorem State.emit_started (e : Event) (s : State) :
    (s.emit e).started = s.started := rfl
@[simp] theorem State.emit_fault (e : Event) (s : State) :
    (s.emit e).fault = s.fault := rfl
@[simp] theorem State.emit_now (e : Event) (s : State) :
    (s.emit e).now = s.now := rfl
@[simp] theorem State.emit_trace (e : Event) (s : State) :
    (s.emit e).trace = s.trace ++ [e] := rfl
@[simp] theorem State.emit_reply (e : Event) (s : State) :
    (s.emit e).reply = s.reply := rfl
@[simp] theorem State.emit_draws (e : Event) (s : State) :
    (s.emit e).draws = s.draws := rfl
@[simp] theorem State.emit_schedule (e : Event) (s : State) :
    (s.emit e).schedule = s.schedule := rfl
@[simp] theorem State.emit_hostLater (e : Event) (s : State) :
    (s.emit e).hostLater = s.hostLater := rfl
@[simp] theorem State.emit_cfg (e : Event) (s : State) :
    (s.emit e).cfg = s.cfg := rfl

/-! ### State.setLine -/

@[simp] theorem State.setLine_act (k : Line) (v : Bool) (s : State) :
    (s.setLine k v).act = s.act := rfl
@[simp] theorem State.setLine_pnd (k : Line) (v : Bool) (s : State) :
    (s.setLine k v).pnd = s.pnd := rfl
@[simp] theorem State.setLine_actCur (k : Line) (v : Bool) (s : State) :
    (s.setLine k v).actCur = s.actCur := rfl
@[simp] theorem State.setLine_pndV (k : Line) (v : Bool) (s : State) :
    (s.setLine k v).pndV = s.pndV := rfl
@[simp] theorem State.setLine_curLine (k : Line) (v : Bool) (s : State) :
    (s.setLine k v).curLine = s.curLine := rfl
@[simp] theorem State.setLine_lines (k : Line) (v : Bool) (s : State) :
    (s.setLine k v).lines = s.lines.set k v := rfl
@[simp] theorem State.setLine_tcnt (k : Line) (v : Bool) (s : State) :
    (s.setLine k v).tcnt = s.tcnt := rfl
@[simp] theorem State.setLine_tarmed (k : Line) (v : Bool) (s : State) :
    (s.setLine k v).tarmed = s.tarmed := rfl
@[simp] theorem State.setLine_started (k : Line) (v : Bool) (s : State) :
    (s.setLine k v).started = s.started := rfl
@[simp] theorem State.setLine_fault (k : Line) (v : Bool) (s : State) :
    (s.setLine k v).fault = s.fault := rfl
@[simp] theorem State.setLine_now (k : Line) (v : Bool) (s : State) :
    (s.setLine k v).now = s.now := rfl
@[simp] theorem State.setLine_trace (k : Line) (v : Bool) (s : State) :
    (s.setLine k v).trace = s.trace ++ [.line s.now k v] := rfl
@[simp] theorem State.setLine_reply (k : Line) (v : Bool) (s : State) :
    (s.setLine k v).reply = s.reply := rfl
@[simp] theorem State.setLine_draws (k : Line) (v : Bool) (s : State) :
    (s.setLine k v).draws = s.draws := rfl
@[simp] theorem State.setLine_schedule (k : Line) (v : Bool) (s : State) :
    (s.setLine k v).schedule = s.schedule := rfl
@[simp] theorem State.setLine_hostLater (k : Line) (v : Bool) (s : State) :
    (s.setLine k v).hostLater = s.hostLater := rfl
@[simp] theorem State.setLine_cfg (k : Line) (v : Bool) (s : State) :
    (s.setLine k v).cfg = s.cfg := rfl

/-! ### State.armTimer -/

@[simp] theorem State.armTimer_act (n : Nat) (k : ArmKind) (s : State) :
    (s.armTimer n k).act = s.act := rfl
@[simp] theorem State.armTimer_pnd (n : Nat) (k : ArmKind) (s : State) :
    (s.armTimer n k).pnd = s.pnd := rfl
@[simp] theorem State.armTimer_actCur (n : Nat) (k : ArmKind) (s : State) :
    (s.armTimer n k).actCur = s.actCur := rfl
@[simp] theorem State.armTimer_pndV (n : Nat) (k : ArmKind) (s : State) :
    (s.armTimer n k).pndV = s.pndV := rfl
@[simp] theorem State.armTimer_curLine (n : Nat) (k : ArmKind) (s : State) :
    (s.armTimer n k).curLine = s.curLine := rfl
@[simp] theorem State.armTimer_lines (n : Nat) (k : ArmKind) (s : State) :
    (s.armTimer n k).lines = s.lines := rfl
@[simp] theorem State.armTimer_tcnt (n : Nat) (k : ArmKind) (s : State) :
    (s.armTimer n k).tcnt = BitVec.ofNat 16 n := rfl
@[simp] theorem State.armTimer_tarmed (n : Nat) (k : ArmKind) (s : State) :
    (s.armTimer n k).tarmed = true := rfl
@[simp] theorem State.armTimer_started (n : Nat) (k : ArmKind) (s : State) :
    (s.armTimer n k).started = s.started := rfl
@[simp] theorem State.armTimer_fault (n : Nat) (k : ArmKind) (s : State) :
    (s.armTimer n k).fault = s.fault := rfl
@[simp] theorem State.armTimer_now (n : Nat) (k : ArmKind) (s : State) :
    (s.armTimer n k).now = s.now := rfl
@[simp] theorem State.armTimer_trace (n : Nat) (k : ArmKind) (s : State) :
    (s.armTimer n k).trace = s.trace ++ [.arm s.now n k] := rfl
@[simp] theorem State.armTimer_reply (n : Nat) (k : ArmKind) (s : State) :
    (s.armTimer n k).reply = s.reply := rfl
@[simp] theorem State.armTimer_draws (n : Nat) (k : ArmKind) (s : State) :
    (s.armTimer n k).draws = s.draws := rfl
@[simp] theorem State.armTimer_schedule (n : Nat) (k : ArmKind) (s : State) :
    (s.armTimer n k).schedule = s.schedule := rfl
@[simp] theorem State.armTimer_hostLater (n : Nat) (k : ArmKind) (s : State) :
    (s.armTimer n k).hostLater = s.hostLater := rfl
@[simp] theorem State.armTimer_cfg (n : Nat) (k : ArmKind) (s : State) :
    (s.armTimer n k).cfg = s.cfg := rfl

/-! ### State.answer -/

@[simp] theorem State.answer_act (v : List Byte) (s : State) :
    (s.answer v).act = s.act := rfl
@[simp] theorem State.answer_pnd (v : List Byte) (s : State) :
    (s.answer v).pnd = s.pnd := rfl
@[simp] theorem State.answer_actCur (v : List Byte) (s : State) :
    (s.answer v).actCur = s.actCur := rfl
@[simp] theorem State.answer_pndV (v : List Byte) (s : State) :
    (s.answer v).pndV = s.pndV := rfl
@[simp] theorem State.answer_curLine (v : List Byte) (s : State) :
    (s.answer v).curLine = s.curLine := rfl
@[simp] theorem State.answer_lines (v : List Byte) (s : State) :
    (s.answer v).lines = s.lines := rfl
@[simp] theorem State.answer_tcnt (v : List Byte) (s : State) :
    (s.answer v).tcnt = s.tcnt := rfl
@[simp] theorem State.answer_tarmed (v : List Byte) (s : State) :
    (s.answer v).tarmed = s.tarmed := rfl
@[simp] theorem State.answer_started (v : List Byte) (s : State) :
    (s.answer v).started = s.started := rfl
@[simp] theorem State.answer_fault (v : List Byte) (s : State) :
    (s.answer v).fault = s.fault := rfl
@[simp] theorem State.answer_now (v : List Byte) (s : State) :
    (s.answer v).now = s.now := rfl
@[simp] theorem State.answer_trace (v : List Byte) (s : State) :
    (s.answer v).trace = s.trace := rfl
@[simp] theorem State.answer_reply (v : List Byte) (s : State) :
    (s.answer v).reply = some v := rfl
@[simp] theorem State.answer_draws (v : List Byte) (s : State) :
    (s.answer v).draws = s.draws := rfl
@[simp] theorem State.answer_schedule (v : List Byte) (s : State) :
    (s.answer v).schedule = s.schedule := rfl
@[simp] theorem State.answer_hostLater (v : List Byte) (s : State) :
    (s.answer v).hostLater = s.hostLater := rfl
@[simp] theorem State.answer_cfg (v : List Byte) (s : State) :
    (s.answer v).cfg = s.cfg := rfl

/-! ### State.answerWord -/

@[simp] theorem State.answerWord_act (w : Word) (s : State) :
    (s.answerWord w).act = s.act := rfl
@[simp] theorem State.answerWord_pnd (w : Word) (s : State) :
    (s.answerWord w).pnd = s.pnd := rfl
@[simp] theorem State.answerWord_actCur (w : Word) (s : State) :
    (s.answerWord w).actCur = s.actCur := rfl
@[simp] theorem State.answerWord_pndV (w : Word) (s : State) :
    (s.answerWord w).pndV = s.pndV := rfl
@[simp] theorem State.answerWord_curLine (w : Word) (s : State) :
    (s.answerWord w).curLine = s.curLine := rfl
@[simp] theorem State.answerWord_lines (w : Word) (s : State) :
    (s.answerWord w).lines = s.lines := rfl
@[simp] theorem State.answerWord_tcnt (w : Word) (s : State) :
    (s.answerWord w).tcnt = s.tcnt := rfl
@[simp] theorem State.answerWord_tarmed (w : Word) (s : State) :
    (s.answerWord w).tarmed = s.tarmed := rfl
@[simp] theorem State.answerWord_started (w : Word) (s : State) :
    (s.answerWord w).started = s.started := rfl
@[simp] theorem State.answerWord_fault (w : Word) (s : State) :
    (s.answerWord w).fault = s.fault := rfl
@[simp] theorem State.answerWord_now (w : Word) (s : State) :
    (s.answerWord w).now = s.now := rfl
@[simp] theorem State.answerWord_trace (w : Word) (s : State) :
    (s.answerWord w).trace = s.trace := rfl
@[simp] theorem State.answerWord_reply (w : Word) (s : State) :
    (s.answerWord w).reply = some (lanesOfWord w) := rfl
@[simp] theorem State.answerWord_draws (w : Word) (s : State) :
    (s.answerWord w).draws = s.draws := rfl
@[simp] theorem State.answerWord_schedule (w : Word) (s : State) :
    (s.answerWord w).schedule = s.schedule := rfl
@[simp] theorem State.answerWord_hostLater (w : Word) (s : State) :
    (s.answerWord w).hostLater = s.hostLater := rfl
@[simp] theorem State.answerWord_cfg (w : Word) (s : State) :
    (s.answerWord w).cfg = s.cfg := rfl

/-! ### State.raiseFault -/

@[simp] theorem State.raiseFault_act (c : FaultCode) (s : State) :
    (s.raiseFault c).act = s.act := by
  unfold State.raiseFault; split <;> simp [*]
@[simp] theorem State.raiseFault_pnd (c : FaultCode) (s : State) :
    (s.raiseFault c).pnd = s.pnd := by
  unfold State.raiseFault; split <;> simp [*]
@[simp] theorem State.raiseFault_actCur (c : FaultCode) (s : State) :
    (s.raiseFault c).actCur = s.actCur := by
  unfold State.raiseFault; split <;> simp [*]
@[simp] theorem State.raiseFault_pndV (c : FaultCode) (s : State) :
    (s.raiseFault c).pndV = s.pndV := by
  unfold State.raiseFault; split <;> simp [*]
@[simp] theorem State.raiseFault_curLine (c : FaultCode) (s : State) :
    (s.raiseFault c).curLine = s.curLine := by
  unfold State.raiseFault; split <;> simp [*]
@[simp] theorem State.raiseFault_lines (c : FaultCode) (s : State) :
    (s.raiseFault c).lines = s.lines := by
  unfold State.raiseFault; split <;> simp [*]
@[simp] theorem State.raiseFault_tcnt (c : FaultCode) (s : State) :
    (s.raiseFault c).tcnt = s.tcnt := by
  unfold State.raiseFault; split <;> simp [*]
@[simp] theorem State.raiseFault_tarmed (c : FaultCode) (s : State) :
    (s.raiseFault c).tarmed = s.tarmed := by
  unfold State.raiseFault; split <;> simp [*]
@[simp] theorem State.raiseFault_started (c : FaultCode) (s : State) :
    (s.raiseFault c).started = s.started := by
  unfold State.raiseFault; split <;> simp [*]
@[simp] theorem State.raiseFault_fault (c : FaultCode) (s : State) :
    (s.raiseFault c).fault = if s.fault = .noFault then c else s.fault := by
  unfold State.raiseFault; split <;> simp [*]
@[simp] theorem State.raiseFault_now (c : FaultCode) (s : State) :
    (s.raiseFault c).now = s.now := by
  unfold State.raiseFault; split <;> simp [*]
@[simp] theorem State.raiseFault_trace (c : FaultCode) (s : State) :
    (s.raiseFault c).trace = s.trace ++ (if s.fault = .noFault then [.fault s.now c] else []) := by
  unfold State.raiseFault; split <;> simp [*]
@[simp] theorem State.raiseFault_reply (c : FaultCode) (s : State) :
    (s.raiseFault c).reply = s.reply := by
  unfold State.raiseFault; split <;> simp [*]
@[simp] theorem State.raiseFault_draws (c : FaultCode) (s : State) :
    (s.raiseFault c).draws = s.draws := by
  unfold State.raiseFault; split <;> simp [*]
@[simp] theorem State.raiseFault_schedule (c : FaultCode) (s : State) :
    (s.raiseFault c).schedule = s.schedule := by
  unfold State.raiseFault; split <;> simp [*]
@[simp] theorem State.raiseFault_hostLater (c : FaultCode) (s : State) :
    (s.raiseFault c).hostLater = s.hostLater := by
  unfold State.raiseFault; split <;> simp [*]
@[simp] theorem State.raiseFault_cfg (c : FaultCode) (s : State) :
    (s.raiseFault c).cfg = s.cfg := by
  unfold State.raiseFault; split <;> simp [*]

/-! ### turnOff -/

@[simp] theorem turnOff_act (s : State) :
    (turnOff s).act = s.act := by
  unfold turnOff; split <;> simp [*]
@[simp] theorem turnOff_pnd (s : State) :
    (turnOff s).pnd = s.pnd := by
  unfold turnOff; split <;> simp [*]
@[simp] theorem turnOff_actCur (s : State) :
    (turnOff s).actCur = s.actCur := by
  unfold turnOff; split <;> simp [*]
@[simp] theorem turnOff_pndV (s : State) :
    (turnOff s).pndV = s.pndV := by
  unfold turnOff; split <;> simp [*]
@[simp] theorem turnOff_curLine (s : State) :
    (turnOff s).curLine = s.curLine := by
  unfold turnOff; split <;> simp [*]
@[simp] theorem turnOff_lines (s : State) :
    (turnOff s).lines = (match s.curLine with | some k => s.lines.set k false | none => s.lines) := by
  unfold turnOff; split <;> simp [*]
@[simp] theorem turnOff_tcnt (s : State) :
    (turnOff s).tcnt = s.tcnt := by
  unfold turnOff; split <;> simp [*]
@[simp] theorem turnOff_tarmed (s : State) :
    (turnOff s).tarmed = s.tarmed := by
  unfold turnOff; split <;> simp [*]
@[simp] theorem turnOff_started (s : State) :
    (turnOff s).started = s.started := by
  unfold turnOff; split <;> simp [*]
@[simp] theorem turnOff_fault (s : State) :
    (turnOff s).fault = s.fault := by
  unfold turnOff; split <;> simp [*]
@[simp] theorem turnOff_now (s : State) :
    (turnOff s).now = s.now := by
  unfold turnOff; split <;> simp [*]
@[simp] theorem turnOff_trace (s : State) :
    (turnOff s).trace = s.trace ++ (match s.curLine with | some k => [.line s.now k false] | none => []) := by
  unfold turnOff; split <;> simp [*]
@[simp] theorem turnOff_reply (s : State) :
    (turnOff s).reply = s.reply := by
  unfold turnOff; split <;> simp [*]
@[simp] theorem turnOff_draws (s : State) :
    (turnOff s).draws = s.draws := by
  unfold turnOff; split <;> simp [*]
@[simp] theorem turnOff_schedule (s : State) :
    (turnOff s).schedule = s.schedule := by
  unfold turnOff; split <;> simp [*]
@[simp] theorem turnOff_hostLater (s : State) :
    (turnOff s).hostLater = s.hostLater := by
  unfold turnOff; split <;> simp [*]
@[simp] theorem turnOff_cfg (s : State) :
    (turnOff s).cfg = s.cfg := by
  unfold turnOff; split <;> simp [*]

/-! ### stepEntry -/

@[simp] theorem stepEntry_act (s : State) :
    (stepEntry s).act = s.act := by
  simp [stepEntry]
@[simp] theorem stepEntry_pnd (s : State) :
    (stepEntry s).pnd = s.pnd := by
  simp [stepEntry]
@[simp] theorem stepEntry_actCur (s : State) :
    (stepEntry s).actCur = s.actCur + 1#3 := by
  simp [stepEntry]
@[simp] theorem stepEntry_pndV (s : State) :
    (stepEntry s).pndV = s.pndV := by
  simp [stepEntry]
@[simp] theorem stepEntry_curLine (s : State) :
    (stepEntry s).curLine = (s.act.get s.actCur.toNat).line := by
  simp [stepEntry]
@[simp] theorem stepEntry_lines (s : State) :
    (stepEntry s).lines = (turnOff s).lines := by
  simp [stepEntry]
@[simp] theorem stepEntry_tcnt (s : State) :
    (stepEntry s).tcnt = BitVec.ofNat 16 (countdown s.cfg.armReference (s.act.get s.actCur.toNat).duty.toNat (prevDuty s.act s.actCur.toNat)) := by
  simp [stepEntry]
@[simp] theorem stepEntry_tarmed (s : State) :
    (stepEntry s).tarmed = true := by
  simp [stepEntry]
@[simp] theorem stepEntry_started (s : State) :
    (stepEntry s).started = s.started := by
  simp [stepEntry]
@[simp] theorem stepEntry_fault (s : State) :
    (stepEntry s).fault = s.fault := by
  simp [stepEntry]
@[simp] theorem stepEntry_now (s : State) :
    (stepEntry s).now = s.now := by
  simp [stepEntry]
@[simp] theorem stepEntry_trace (s : State) :
    (stepEntry s).trace = (turnOff s).trace ++ [.arm s.now (countdown s.cfg.armReference (s.act.get s.actCur.toNat).duty.toNat (prevDuty s.act s.actCur.toNat))
        (.entry s.actCur.toNat (s.act.get s.actCur.toNat).line (s.act.get s.actCur.toNat).duty.toNat
          ((s.act.get s.actCur.toNat).duty.toNat * Config.stepDuration))] := by
  simp [stepEntry]
@[simp] theorem stepEntry_reply (s : State) :
    (stepEntry s).reply = s.reply := by
  simp [stepEntry]
@[simp] theorem stepEntry_draws (s : State) :
    (stepEntry s).draws = s.draws := by
  simp [stepEntry]
@[simp] theorem stepEntry_schedule (s : State) :
    (stepEntry s).schedule = s.schedule := by
  simp [stepEntry]
@[simp] theorem stepEntry_hostLater (s : State) :
    (stepEntry s).hostLater = s.hostLater := by
  simp [stepEntry]
@[simp] theorem stepEntry_cfg (s : State) :
    (stepEntry s).cfg = s.cfg := by
  simp [stepEntry]

/-! ### swapFrame -/

@[simp] theorem swapFrame_act (s : State) :
    (swapFrame s).act = s.pnd := by
  simp [swapFrame, Levels.set]
@[simp] theorem swapFrame_pnd (s : State) :
    (swapFrame s).pnd = s.pnd := by
  simp [swapFrame, Levels.set]
@[simp] theorem swapFrame_actCur (s : State) :
    (swapFrame s).actCur = 0#3 := by
  simp [swapFrame, Levels.set]
@[simp] theorem swapFrame_pndV (s : State) :
    (swapFrame s).pndV = false := by
  simp [swapFrame, Levels.set]
@[simp] theorem swapFrame_curLine (s : State) :
    (swapFrame s).curLine = s.curLine := by
  simp [swapFrame, Levels.set]
@[simp] theorem swapFrame_lines (s : State) :
    (swapFrame s).lines = ⟨true, true, true⟩ := by
  simp [swapFrame, Levels.set]
@[simp] theorem swapFrame_tcnt (s : State) :
    (swapFrame s).tcnt = s.tcnt := by
  simp [swapFrame, Levels.set]
@[simp] theorem swapFrame_tarmed (s : State) :
    (swapFrame s).tarmed = s.tarmed := by
  simp [swapFrame, Levels.set]
@[simp] theorem swapFrame_started (s : State) :
    (swapFrame s).started = s.started := by
  simp [swapFrame, Levels.set]
@[simp] theorem swapFrame_fault (s : State) :
    (swapFrame s).fault = s.fault := by
  simp [swapFrame, Levels.set]
@[simp] theorem swapFrame_now (s : State) :
    (swapFrame s).now = s.now := by
  simp [swapFrame, Levels.set]
@[simp] theorem swapFrame_trace (s : State) :
    (swapFrame s).trace = s.trace ++ [.line s.now .l0 true, .line s.now .l1 true, .line s.now .l2 true, .swap s.now] := by
  simp [swapFrame, Levels.set]
@[simp] theorem swapFrame_reply (s : State) :
    (swapFrame s).reply = s.reply := by
  simp [swapFrame, Levels.set]
@[simp] theorem swapFrame_draws (s : State) :
    (swapFrame s).draws = s.draws := by
  simp [swapFrame, Levels.set]
@[simp] theorem swapFrame_schedule (s : State) :
    (swapFrame s).schedule = s.schedule := by
  simp [swapFrame, Levels.set]
@[simp] theorem swapFrame_hostLater (s : State) :
    (swapFrame s).hostLater = s.hostLater := by
  simp [swapFrame, Levels.set]
@[simp] theorem swapFrame_cfg (s : State) :
    (swapFrame s).cfg = s.cfg := by
  simp [swapFrame, Levels.set]

/-! ### stepIdle -/

@[simp] theorem stepIdle_act (s : State) :
    (stepIdle s).act = s.act := rfl
@[simp] theorem stepIdle_pnd (s : State) :
    (stepIdle s).pnd = s.pnd := rfl
@[simp] theorem stepIdle_actCur (s : State) :
    (stepIdle s).actCur = s.actCur := rfl
@[simp] theorem stepIdle_pndV (s : State) :
    (stepIdle s).pndV = s.pndV := rfl
@[simp] theorem stepIdle_curLine (s : State) :
    (stepIdle s).curLine = s.curLine := rfl
@[simp] theorem stepIdle_lines (s : State) :
    (stepIdle s).lines = s.lines := rfl
@[simp] theorem stepIdle_tcnt (s : State) :
    (stepIdle s).tcnt = BitVec.ofNat 16 s.cfg.idleDelay := rfl
@[simp] theorem stepIdle_tarmed (s : State) :
    (stepIdle s).tarmed = true := rfl
@[simp] theorem stepIdle_started (s : State) :
    (stepIdle s).started = s.started := rfl
@[simp] theorem stepIdle_fault (s : State) :
    (stepIdle s).fault = s.fault := rfl
@[simp] theorem stepIdle_now (s : State) :
    (stepIdle s).now = s.now := rfl
@[simp] theorem stepIdle_trace (s : State) :
    (stepIdle s).trace = s.trace ++ [.arm s.now s.cfg.idleDelay .idle] := rfl
@[simp] theorem stepIdle_reply (s : State) :
    (stepIdle s).reply = s.reply := rfl
@[simp] theorem stepIdle_draws (s : State) :
    (stepIdle s).draws = s.draws := rfl
@[simp] theorem stepIdle_schedule (s : State) :
    (stepIdle s).schedule = s.schedule := rfl
@[simp] theorem stepIdle_hostLater (s : State) :
    (stepIdle s).hostLater = s.hostLater := rfl
@[simp] theorem stepIdle_cfg (s : State) :
    (stepIdle s).cfg = s.cfg := rfl

/-! ### tickEffect -/

@[simp] theorem tickEffect_act (s : State) :
    (tickEffect s).act = s.act := rfl
@[simp] theorem tickEffect_pnd (s : State) :
    (tickEffect s).pnd = s.pnd := rfl
@[simp] theorem tickEffect_actCur (s : State) :
    (tickEffect s).actCur = s.actCur := rfl
@[simp] theorem tickEffect_pndV (s : State) :
    (tickEffect s).pndV = s.pndV := rfl
@[simp] theorem tickEffect_curLine (s : State) :
    (tickEffect s).curLine = s.curLine := rfl
@[simp] theorem tickEffect_lines (s : State) :
    (tickEffect s).lines = s.lines := rfl
@[simp] theorem tickEffect_tcnt (s : State) :
    (tickEffect s).tcnt = if s.fault = .noFault ∧ s.tarmed = true ∧ s.tcnt ≠ 0#16 then s.tcnt - 1#16 else s.tcnt := rfl
@[simp] theorem tickEffect_tarmed (s : State) :
    (tickEffect s).tarmed = s.tarmed := rfl
@[simp] theorem tickEffect_started (s : State) :
    (tickEffect s).started = s.started := rfl
@[simp] theorem tickEffect_fault (s : State) :
    (tickEffect s).fault = s.fault := rfl
@[simp] theorem tickEffect_now (s : State) :
    (tickEffect s).now = s.now + 1 := rfl
@[simp] theorem tickEffect_trace (s : State) :
    (tickEffect s).trace = s.trace := rfl
@[simp] theorem tickEffect_reply (s : State) :
    (tickEffect s).reply = s.reply := rfl
@[simp] theorem tickEffect_draws (s : State) :
    (tickEffect s).draws = s.draws := rfl
@[simp] theorem tickEffect_schedule (s : State) :
    (tickEffect s).schedule = s.schedule := rfl
@[simp] theorem tickEffect_hostLater (s : State) :
    (tickEffect s).hostLater = s.hostLater := rfl
@[simp] theorem tickEffect_cfg (s : State) :
    (tickEffect s).cfg = s.cfg := rfl

/-! ### submitFrame -/

@[simp] theorem submitFrame_act (fr fg fb : Byte) (s : State) :
    (submitFrame fr fg fb s).act = s.act := rfl
@[simp] theorem submitFrame_pnd (fr fg fb : Byte) (s : State) :
    (submitFrame fr fg fb s).pnd = buildFrame (Config.tieDraw s.draws) fr fg fb := rfl
@[simp] theorem submitFrame_actCur (fr fg fb : Byte) (s : State) :
    (submitFrame fr fg fb s).actCur = s.actCur := rfl
@[simp] theorem submitFrame_pndV (fr fg fb : Byte) (s : State) :
    (submitFrame fr fg fb s).pndV = true := rfl
@[simp] theorem submitFrame_curLine (fr fg fb : Byte) (s : State) :
    (submitFrame fr fg fb s).curLine = s.curLine := rfl
@[simp] theorem submitFrame_lines (fr fg fb : Byte) (s : State) :
    (submitFrame fr fg fb s).lines = s.lines := rfl
@[simp] theorem submitFrame_tcnt (fr fg fb : Byte) (s : State) :
    (submitFrame fr fg fb s).tcnt = s.tcnt := rfl
@[simp] theorem submitFrame_tarmed (fr fg fb : Byte) (s : State) :
    (submitFrame fr fg fb s).tarmed = s.tarmed := rfl
@[simp] theorem submitFrame_started (fr fg fb : Byte) (s : State) :
    (submitFrame fr fg fb s).started = s.started := rfl
@[simp] theorem submitFrame_fault (fr fg fb : Byte) (s : State) :
    (submitFrame fr fg fb s).fault = s.fault := rfl
@[simp] theorem submitFrame_now (fr fg fb : Byte) (s : State) :
    (submitFrame fr fg fb s).now = s.now := rfl
@[simp] theorem submitFrame_trace (fr fg fb : Byte) (s : State) :
    (submitFrame fr fg fb s).trace = s.trace ++ [.submit s.now (sat100 fr).toNat (sat100 fg).toNat (sat100 fb).toNat] := rfl
@[simp] theorem submitFrame_reply (fr fg fb : Byte) (s : State) :
    (submitFrame fr fg fb s).reply = s.reply := rfl
@[simp] theorem submitFrame_draws (fr fg fb : Byte) (s : State) :
    (submitFrame fr fg fb s).draws = s.draws + 1 := rfl
@[simp] theorem submitFrame_schedule (fr fg fb : Byte) (s : State) :
    (submitFrame fr fg fb s).schedule = s.schedule := rfl
@[simp] theorem submitFrame_hostLater (fr fg fb : Byte) (s : State) :
    (submitFrame fr fg fb s).hostLater = s.hostLater := rfl
@[simp] theorem submitFrame_cfg (fr fg fb : Byte) (s : State) :
    (submitFrame fr fg fb s).cfg = s.cfg := rfl

/-! ### State.resetInput -/

@[simp] theorem State.resetInput_act (s : State) :
    s.resetInput.act = Frame.reset := rfl
@[simp] theorem State.resetInput_pnd (s : State) :
    s.resetInput.pnd = Frame.reset := rfl
@[simp] theorem State.resetInput_actCur (s : State) :
    s.resetInput.actCur = 4#3 := rfl
@[simp] theorem State.resetInput_pndV (s : State) :
    s.resetInput.pndV = false := rfl
@[simp] theorem State.resetInput_curLine (s : State) :
    s.resetInput.curLine = none := rfl
@[simp] theorem State.resetInput_lines (s : State) :
    s.resetInput.lines = ⟨false, false, false⟩ := rfl
@[simp] theorem State.resetInput_tcnt (s : State) :
    s.resetInput.tcnt = 0#16 := rfl
@[simp] theorem State.resetInput_tarmed (s : State) :
    s.resetInput.tarmed = false := rfl
@[simp] theorem State.resetInput_started (s : State) :
    s.resetInput.started = false := rfl
@[simp] theorem State.resetInput_fault (s : State) :
    s.resetInput.fault = .noFault := rfl
@[simp] theorem State.resetInput_now (s : State) :
    s.resetInput.now = 0 := rfl
@[simp] theorem State.resetInput_trace (s : State) :
    s.resetInput.trace = [] := rfl
@[simp] theorem State.resetInput_reply (s : State) :
    s.resetInput.reply = none := rfl
@[simp] theorem State.resetInput_draws (s : State) :
    s.resetInput.draws = s.draws := rfl
@[simp] theorem State.resetInput_schedule (s : State) :
    s.resetInput.schedule = s.schedule := rfl
@[simp] theorem State.resetInput_hostLater (s : State) :
    s.resetInput.hostLater = s.hostLater := rfl
@[simp] theorem State.resetInput_cfg (s : State) :
    s.resetInput.cfg = s.cfg := rfl

end Sys2Proof.Machine
end

