-- ==== Sys2Proof/Laws/Ops.lean ====
section
/-! SUPPORT. One lemma for each shared operation that says what it can do: the sorter, the frame build, the STEP, the two
events and the step itself. -/

namespace Sys2Proof.Machine

/-! ### The sorter and the frame build -/

/-- A stage gives back its two inputs. -/
theorem compareExchange_perm (b : Bool) (x y : Entry) :
    [(compareExchange b x y).1, (compareExchange b x y).2].Perm [x, y] := by
  unfold compareExchange
  split
  · exact List.Perm.swap ..
  · exact List.Perm.refl _

/-- A stage puts the smaller key first. -/
theorem compareExchange_sorted (b : Bool) (x y : Entry) :
    (compareExchange b x y).1.duty ≤ (compareExchange b x y).2.duty := by
  unfold compareExchange
  split
  · rename_i h
    simp only [Bool.or_eq_true, Bool.and_eq_true, decide_eq_true_eq] at h
    rcases h with h | ⟨h, -⟩
    · exact BitVec.le_of_lt h
    · simp [h]
  · rename_i h
    simp only [Bool.or_eq_true, Bool.and_eq_true, decide_eq_true_eq, not_or] at h
    exact BitVec.not_lt.mp h.1

/-- A stage is one of its two orders, and which one is known unless the keys are equal. -/
theorem compareExchange_cases (b : Bool) (x y : Entry) :
    (compareExchange b x y = (x, y) ∧ x.duty.toNat ≤ y.duty.toNat) ∨
      (compareExchange b x y = (y, x) ∧ y.duty.toNat ≤ x.duty.toNat) := by
  have h := compareExchange_sorted b x y
  unfold compareExchange at h ⊢
  split at h <;> simp_all [BitVec.le_def]

/-- The sorter's result is a permutation of its inputs (40_sorter.md R81). -/
theorem sort3_perm (d : TieDraw) (x y z : Entry) :
    [(sort3 d x y z).1, (sort3 d x y z).2.1, (sort3 d x y z).2.2].Perm [x, y, z] := by
  simp only [sort3]
  rcases compareExchange_cases d.stage1 x y with ⟨h1, -⟩ | ⟨h1, -⟩ <;> rw [h1] <;> dsimp only
  · rcases compareExchange_cases d.stage2 y z with ⟨h2, -⟩ | ⟨h2, -⟩ <;> rw [h2] <;> dsimp only
    · rcases compareExchange_cases d.stage3 x y with ⟨h3, -⟩ | ⟨h3, -⟩ <;> rw [h3]
      exact List.Perm.swap ..
    · rcases compareExchange_cases d.stage3 x z with ⟨h3, -⟩ | ⟨h3, -⟩ <;> rw [h3] <;> dsimp only
      · exact (List.Perm.swap ..).cons _
      · exact (List.Perm.swap x z _).trans ((List.Perm.swap ..).cons _)
  · rcases compareExchange_cases d.stage2 x z with ⟨h2, -⟩ | ⟨h2, -⟩ <;> rw [h2] <;> dsimp only
    · rcases compareExchange_cases d.stage3 y x with ⟨h3, -⟩ | ⟨h3, -⟩ <;> rw [h3]
      exact List.Perm.swap ..
    · rcases compareExchange_cases d.stage3 y z with ⟨h3, -⟩ | ⟨h3, -⟩ <;> rw [h3] <;> dsimp only
      · exact ((List.Perm.swap ..).cons _).trans (List.Perm.swap ..)
      · exact (List.Perm.swap y z _).trans (((List.Perm.swap ..).cons _).trans (List.Perm.swap ..))

/-- The sorter's result is non-decreasing (40_sorter.md R82). -/
theorem sort3_sorted (d : TieDraw) (x y z : Entry) :
    (sort3 d x y z).1.duty.toNat ≤ (sort3 d x y z).2.1.duty.toNat ∧
      (sort3 d x y z).2.1.duty.toNat ≤ (sort3 d x y z).2.2.duty.toNat := by
  simp only [sort3]
  rcases compareExchange_cases d.stage1 x y with ⟨h1, h1'⟩ | ⟨h1, h1'⟩ <;> rw [h1] <;> dsimp only
  · rcases compareExchange_cases d.stage2 y z with ⟨h2, h2'⟩ | ⟨h2, h2'⟩ <;> rw [h2] <;> dsimp only
    · rcases compareExchange_cases d.stage3 x y with ⟨h3, h3'⟩ | ⟨h3, h3'⟩ <;> rw [h3] <;> dsimp only <;> omega
    · rcases compareExchange_cases d.stage3 x z with ⟨h3, h3'⟩ | ⟨h3, h3'⟩ <;> rw [h3] <;> dsimp only <;> omega
  · rcases compareExchange_cases d.stage2 x z with ⟨h2, h2'⟩ | ⟨h2, h2'⟩ <;> rw [h2] <;> dsimp only
    · rcases compareExchange_cases d.stage3 y x with ⟨h3, h3'⟩ | ⟨h3, h3'⟩ <;> rw [h3] <;> dsimp only <;> omega
    · rcases compareExchange_cases d.stage3 y z with ⟨h3, h3'⟩ | ⟨h3, h3'⟩ <;> rw [h3] <;> dsimp only <;> omega

/-- A saturated operand is the smaller of the operand and 100 (30_encoding.md R71). -/
@[simp] theorem sat100_toNat (f : Byte) : (sat100 f).toNat = min f.toNat 100 := by
  simp only [sat100, BitVec.toNat_ofNat]
  exact Nat.mod_eq_of_lt (by omega)

/-- Every frame BUILD_FRAME returns is well formed (41_commands.md R92). -/
theorem buildFrame_wellFormed (d : TieDraw) (fr fg fb : Byte) : (buildFrame d fr fg fb).WellFormed := by
  have hp := sort3_perm d ⟨some .l0, sat100 fr⟩ ⟨some .l1, sat100 fg⟩ ⟨some .l2, sat100 fb⟩
  have hs := sort3_sorted d ⟨some .l0, sat100 fr⟩ ⟨some .l1, sat100 fg⟩ ⟨some .l2, sat100 fb⟩
  refine ⟨rfl, hp.map Entry.line, hs.1, hs.2, ?_⟩
  have hm := hp.mem_iff.mp (by simp :
    (sort3 d ⟨some .l0, sat100 fr⟩ ⟨some .l1, sat100 fg⟩ ⟨some .l2, sat100 fb⟩).2.2 ∈ _)
  simp only [List.mem_cons, List.not_mem_nil, or_false] at hm
  simp only [buildFrame]
  rcases hm with h | h | h <;> rw [h] <;> simp

/-! ### The events and the STEP -/

/-- The expiry is enabled just by the condition of 42_sequencer.md R120. -/
theorem expiryEnabled_iff (s : State) :
    s.expiryEnabled = true ↔ s.tarmed = true ∧ s.tcnt = 0#16 ∧ s.fault = .noFault := by
  simp [State.expiryEnabled, State.expiryPending, and_assoc]

/-- EXPIRE in a state that enables it. -/
theorem execExpire_of_enabled {s : State} (h : s.expiryEnabled = true) :
    execExpire s = .next (sequencerStep { s with tarmed := false }) := by
  simp [execExpire, h]

/-- TIME_TICK in a state that enables it. -/
theorem execTimeTick_of_enabled {s : State} (h : s.expiryEnabled = false) :
    execTimeTick s = .next (tickEffect s) := by
  simp [execTimeTick, h]

/-- STEP takes exactly one of its three paths (42_sequencer.md R106). -/
theorem sequencerStep_cases (s : State) :
    (s.actCur.toNat < 4 ∧ sequencerStep s = stepEntry s) ∨
      (4 ≤ s.actCur.toNat ∧ s.pndV = true ∧ sequencerStep s = stepEntry (swapFrame s)) ∨
      (4 ≤ s.actCur.toNat ∧ s.pndV = false ∧ sequencerStep s = stepIdle s) := by
  unfold sequencerStep
  by_cases h : s.actCur < 4#3
  · exact .inl ⟨by simpa [BitVec.lt_def] using h, by simp [h]⟩
  · have h4 : 4 ≤ s.actCur.toNat := by simpa [BitVec.lt_def] using h
    cases hp : s.pndV
    · exact .inr (.inr ⟨h4, rfl, by simp [h]⟩)
    · exact .inr (.inl ⟨h4, rfl, by simp [h]⟩)

/-- What a command does: its effect with no fault, nothing in a fault (60_exceptions.md R137). -/
theorem command_cases (f : State → State) (s : State) :
    (s.fault = .noFault ∧ s.command f = f s) ∨ (s.fault ≠ .noFault ∧ s.command f = s) := by
  by_cases h : s.fault = .noFault
  · exact .inl ⟨h, by simp [State.command, h]⟩
  · exact .inr ⟨h, by simp [State.command, h]⟩

/-- What exec can answer: every instruction, with the next state it gives and what that needs. -/
theorem exec_cases {i : Instr} {s t : State} (h : exec i s = .next t) :
    t = s ∨ (∃ fr fg fb, i = .submit fr fg fb ∧ s.fault = .noFault ∧ t = submitFrame fr fg fb s) ∨
      (i = .start ∧ s.fault = .noFault ∧ s.started = true ∧ t = s.raiseFault .startTwice) ∨
      (i = .start ∧ s.fault = .noFault ∧ s.started = false ∧ t = sequencerStep { s with started := true }) ∨
      (∃ w, i = .illegal w ∧ s.fault = .noFault ∧ t = s.raiseFault .illegalCmd) ∨
      (encodeWord i = none ∧ (readOffset i).isSome = true ∧ ∃ w, t = s.answerWord w) ∨
      (i = .expire ∧ s.expiryEnabled = true ∧ t = sequencerStep { s with tarmed := false }) ∨
      (i = .timeTick ∧ s.expiryEnabled = false ∧ t = tickEffect s) := by
  cases i with
  | nop =>
    have : s.command (fun t => t) = t := by simpa [exec, execNop] using h
    rcases command_cases (fun t => t) s with ⟨-, e⟩ | ⟨-, e⟩ <;> exact .inl (by rw [← this, e])
  | submit fr fg fb =>
    have : s.command (submitFrame fr fg fb) = t := by simpa [exec, execSubmit] using h
    rcases command_cases (submitFrame fr fg fb) s with ⟨hf, e⟩ | ⟨-, e⟩
    · exact .inr (.inl ⟨fr, fg, fb, rfl, hf, by rw [← this, e]⟩)
    · exact .inl (by rw [← this, e])
  | start =>
    have : s.command startBlock = t := by simpa [exec, execStart] using h
    rcases command_cases startBlock s with ⟨hf, e⟩ | ⟨-, e⟩
    · cases hs : s.started
      · exact .inr (.inr (.inr (.inl ⟨rfl, hf, rfl, by simp [← this, e, startBlock, hs]⟩)))
      · exact .inr (.inr (.inl ⟨rfl, hf, rfl, by simp [← this, e, startBlock, hs]⟩))
    · exact .inl (by rw [← this, e])
  | illegal w =>
    have : s.command (State.raiseFault .illegalCmd) = t := by simpa [exec, execIllegal] using h
    rcases command_cases (State.raiseFault .illegalCmd) s with ⟨hf, e⟩ | ⟨-, e⟩
    · exact .inr (.inr (.inr (.inr (.inl ⟨w, rfl, hf, by rw [← this, e]⟩))))
    · exact .inl (by rw [← this, e])
  | expire =>
    cases he : s.expiryEnabled
    · simp [exec, execExpire, he] at h
    · exact .inr (.inr (.inr (.inr (.inr (.inr (.inl ⟨rfl, rfl, by simpa [exec, execExpire, he] using h.symm⟩))))))
  | timeTick =>
    cases he : s.expiryEnabled
    · exact .inr (.inr (.inr (.inr (.inr (.inr (.inr ⟨rfl, rfl, by simpa [exec, execTimeTick, he] using h.symm⟩))))))
    · simp [exec, execTimeTick, he] at h
  | rdStatus => exact .inr (.inr (.inr (.inr (.inr (.inl ⟨rfl, rfl, _, by simpa [exec, execRdStatus] using h.symm⟩)))))
  | rdTimer => exact .inr (.inr (.inr (.inr (.inr (.inl ⟨rfl, rfl, _, by simpa [exec, execRdTimer] using h.symm⟩)))))
  | rdAct0 => exact .inr (.inr (.inr (.inr (.inr (.inl ⟨rfl, rfl, _, by simpa [exec, execRdAct0] using h.symm⟩)))))
  | rdAct1 => exact .inr (.inr (.inr (.inr (.inr (.inl ⟨rfl, rfl, _, by simpa [exec, execRdAct1] using h.symm⟩)))))
  | rdAct2 => exact .inr (.inr (.inr (.inr (.inr (.inl ⟨rfl, rfl, _, by simpa [exec, execRdAct2] using h.symm⟩)))))
  | rdAct3 => exact .inr (.inr (.inr (.inr (.inr (.inl ⟨rfl, rfl, _, by simpa [exec, execRdAct3] using h.symm⟩)))))
  | rdPnd0 => exact .inr (.inr (.inr (.inr (.inr (.inl ⟨rfl, rfl, _, by simpa [exec, execRdPnd0] using h.symm⟩)))))
  | rdPnd1 => exact .inr (.inr (.inr (.inr (.inr (.inl ⟨rfl, rfl, _, by simpa [exec, execRdPnd1] using h.symm⟩)))))
  | rdPnd2 => exact .inr (.inr (.inr (.inr (.inr (.inl ⟨rfl, rfl, _, by simpa [exec, execRdPnd2] using h.symm⟩)))))
  | rdPnd3 => exact .inr (.inr (.inr (.inr (.inr (.inl ⟨rfl, rfl, _, by simpa [exec, execRdPnd3] using h.symm⟩)))))

/-! ### The turns and the step -/

/-- The next turn of a schedule that holds one. -/
theorem nextTurn_cons {s : State} {turn : Turn} {rest : List Turn} (h : s.schedule = turn :: rest) :
    s.nextTurn = (turn, { s with schedule := rest }) := by
  simp [State.nextTurn, h]

/-- After the last turn a silent host leaves the block to itself. -/
theorem nextTurn_silent {s : State} (h : s.schedule = []) (hl : s.hostLater = .silent) : s.nextTurn = (.block, s) := by
  simp [State.nextTurn, h, hl]

/-- After the last turn a host that goes on has its next batch, and the block then moves. -/
theorem nextTurn_goesOn {s : State} {n : Nat} (h : s.schedule = []) (hl : s.hostLater = .goesOn n) :
    s.nextTurn =
      State.nextTurn { s with schedule := Config.hostTurns n ++ [.block], hostLater := .goesOn (n + 1) } := by
  cases hb : Config.hostTurns n <;> simp [State.nextTurn, h, hl, hb]

/-- Taking a turn off writes nothing but the turns to come. -/
theorem nextTurn_state (s : State) :
    s.nextTurn.2 = { s with schedule := s.nextTurn.2.schedule, hostLater := s.nextTurn.2.hostLater } := by
  unfold State.nextTurn
  repeat' split
  all_goals rfl

/-- What a turn can do: a transaction of exec, a reset, a bad access. -/
theorem takeTurn_cases {turn : Turn} {u t : State} (h : takeTurn turn u = .next t) :
    (turn = .block ∧ exec (enabledEvent u) u = .next t) ∨ (turn = .reset ∧ t = u.resetInput) ∨
      ∃ a, turn = .access a ∧ ((∃ i, decode a = .ok i ∧ exec i u = .next t) ∨
        (decode a = .error .outsideWindow ∧ t = u) ∨
        (∃ r, decode a = .error r ∧ r ≠ .outsideWindow ∧ t = badAccess a u)) := by
  cases turn with
  | block => exact .inl ⟨rfl, h⟩
  | reset => exact .inr (.inl ⟨rfl, by simpa [takeTurn] using h.symm⟩)
  | access a =>
    refine .inr (.inr ⟨a, rfl, ?_⟩)
    simp only [takeTurn, hostAccess] at h
    split at h
    · exact .inl ⟨_, ‹_›, h⟩
    · split at h
      · rename_i r hd hr
        exact .inr (.inl ⟨hr ▸ hd, by simpa using h.symm⟩)
      · exact .inr (.inr ⟨_, ‹_›, ‹_›, by simpa using h.symm⟩)

/-- A transaction leaves the turns to come as they are. -/
theorem takeTurn_turns {turn : Turn} {u t : State} (h : takeTurn turn u = .next t) :
    t.schedule = u.schedule ∧ t.hostLater = u.hostLater := by
  have step : ∀ v : State, (sequencerStep v).schedule = v.schedule ∧ (sequencerStep v).hostLater = v.hostLater := fun v => by
    rcases sequencerStep_cases v with ⟨-, e⟩ | ⟨-, -, e⟩ | ⟨-, -, e⟩ <;> simp [e]
  have run : ∀ i, exec i u = .next t → t.schedule = u.schedule ∧ t.hostLater = u.hostLater := fun i hi => by
    rcases exec_cases hi with rfl | ⟨_, _, _, -, -, rfl⟩ | ⟨-, -, -, rfl⟩ | ⟨-, -, -, rfl⟩ | ⟨_, -, -, rfl⟩ | ⟨-, -, _, rfl⟩ |
      ⟨-, -, rfl⟩ | ⟨-, -, rfl⟩ <;> simp [step]
  obtain ⟨-, h⟩ | ⟨-, rfl⟩ | ⟨a, -, ⟨i, -, h⟩ | ⟨-, rfl⟩ | ⟨r, -, -, rfl⟩⟩ := takeTurn_cases h
  · exact run _ h
  · simp
  · exact run _ h
  · simp
  · cases a <;> simp [badAccess]

/-- A silent host has no batches. -/
@[simp] theorem batches_silent (m : Nat) : HostLater.silent.batches m = [] := rfl

/-- The first of the batches of a host that goes on. -/
theorem batches_goesOn_succ (n m : Nat) :
    (HostLater.goesOn n).batches (m + 1) = Config.hostTurns n ++ (HostLater.goesOn (n + 1)).batches m := by
  simp only [HostLater.batches, List.range_succ_eq_map, List.flatMap_cons, List.flatMap_map, Nat.add_zero]
  congr 1
  refine List.flatMap_congr fun i _ => ?_
  rw [show n + i.succ = n + 1 + i by omega]

/-- The states a step can run a transaction in: the state itself but for the turns to come. -/
theorem step_cases {s t : State} (h : step s = .next t) :
    ∃ u schedule hostLater, u = { s with schedule := schedule, hostLater := hostLater } ∧
      ((∃ i, exec i u = .next t) ∨ t = u.resetInput ∨ (∃ a, t = badAccess a u)) := by
  refine ⟨s.nextTurn.2, _, _, nextTurn_state s, ?_⟩
  obtain ⟨-, h⟩ | ⟨-, h⟩ | ⟨a, -, ⟨i, -, h⟩ | ⟨-, h⟩ | ⟨r, -, -, h⟩⟩ := takeTurn_cases h
  · exact .inl ⟨_, h⟩
  · exact .inr (.inl h)
  · exact .inl ⟨i, h⟩
  · exact .inl ⟨.nop, by simp [exec, execNop, State.command, h]⟩
  · exact .inr (.inr ⟨a, h⟩)

/-! ### The trace -/

/-- The ArmEv that one event is. -/
def Event.asArm : Event → Option (Nat × Nat × ArmKind)
  | .arm t n k => some (t, n, k)
  | .line _ _ _ | .swap _ | .submit _ _ _ _ | .fault _ _ => none

/-- The SwapEv time that one event is. -/
def Event.asSwap : Event → Option Nat
  | .swap t => some t
  | .line _ _ _ | .arm _ _ _ | .submit _ _ _ _ | .fault _ _ => none

@[simp] theorem lastArm_nil : lastArm [] = none := rfl

@[simp] theorem lastSwap_nil : lastSwap [] = none := rfl

/-- The last ArmEv of a trace with one more event. -/
theorem lastArm_append_one (tr : List Event) (e : Event) : lastArm (tr ++ [e]) = e.asArm.or (lastArm tr) := by
  cases e <;> simp [lastArm, Event.asArm, List.foldl_append]

/-- The last SwapEv of a trace with one more event. -/
theorem lastSwap_append_one (tr : List Event) (e : Event) : lastSwap (tr ++ [e]) = e.asSwap.or (lastSwap tr) := by
  cases e <;> simp [lastSwap, Event.asSwap, List.foldl_append]

/-- The last ArmEv of a longer trace. -/
@[simp] theorem lastArm_append (tr es : List Event) : lastArm (tr ++ es) = (lastArm es).or (lastArm tr) := by
  induction es using List.reverseRecOn with
  | nil => simp
  | append_singleton es e ih => rw [← List.append_assoc, lastArm_append_one, ih, lastArm_append_one, Option.or_assoc]

/-- The last SwapEv of a longer trace. -/
@[simp] theorem lastSwap_append (tr es : List Event) : lastSwap (tr ++ es) = (lastSwap es).or (lastSwap tr) := by
  induction es using List.reverseRecOn with
  | nil => simp
  | append_singleton es e ih => rw [← List.append_assoc, lastSwap_append_one, ih, lastSwap_append_one, Option.or_assoc]

@[simp] theorem lastArm_cons (e : Event) (es : List Event) : lastArm (e :: es) = (lastArm es).or e.asArm := by
  rw [show e :: es = [e] ++ es from rfl, lastArm_append]
  congr 1

@[simp] theorem lastSwap_cons (e : Event) (es : List Event) : lastSwap (e :: es) = (lastSwap es).or e.asSwap := by
  rw [show e :: es = [e] ++ es from rfl, lastSwap_append]
  congr 1

/-- A trace with no ArmEv has no last one. -/
theorem lastArm_eq_none (tr : List Event) (h : tr.any Event.isArm = false) : lastArm tr = none := by
  induction tr with
  | nil => rfl
  | cons e es ih => cases e <;> simp_all [Event.asArm, Event.isArm]

/-- A trace with no SwapEv has no last one. -/
theorem lastSwap_eq_none (tr : List Event) (h : tr.any Event.isSwap = false) : lastSwap tr = none := by
  induction tr with
  | nil => rfl
  | cons e es ih => cases e <;> simp_all [Event.asSwap, Event.isSwap]

/-! ### The lines -/

/-- Driving a line sets that line's level and no other's. -/
@[simp] theorem Levels.get_set (v : Levels) (k k' : Line) (b : Bool) :
    (v.set k b).get k' = if k' = k then b else v.get k' := by
  cases k <;> cases k' <;> rfl

/-- After the turn-off the line of CUR_LINE is low, and the others are as before (42_sequencer.md R108). -/
theorem turnOff_get (s : State) (k : Line) :
    (turnOff s).lines.get k = if s.curLine = some k then false else s.lines.get k := by
  rw [turnOff_lines]
  cases s.curLine with
  | none => simp
  | some k' => simp [eq_comm]

end Sys2Proof.Machine
end

