-- ==== Sys2Proof/Laws/PerInstr.lean ====
section
/-! SUPPORT. The statements made of every instruction, one lemma a constructor. -/

namespace Sys2Proof.Laws.EncodedAccess

/-- Whatever access an instruction is encoded as is a 4-byte, 4-aligned access inside the window (20_memory.md R47, R50, R51). -/
def Statement (i : Instr) : Prop :=
  ∀ a, encode i = some a → inWindow a.rel = true ∧ a.rel.toNat % 4 = 0 ∧ a.nbytes = 4

/-- A command is a word written to CMD. -/
theorem of_word {i : Instr} {w : Word} (h : encodeWord i = some w) : Statement i := by
  intro a ha
  obtain rfl : Access.write 0 (lanesOfWord w) = a := by simpa [encode, h] using ha
  exact ⟨rfl, rfl, rfl⟩

/-- A read is a 4-byte read at the register's offset. -/
theorem of_offset {i : Instr} {off : Nat} (hw : encodeWord i = none) (h : readOffset i = some off) (hlt : off < 64)
    (hal : off % 4 = 0) : Statement i := by
  intro a ha
  obtain rfl : Access.read off 4 = a := by simpa [encode, hw, h] using ha
  refine ⟨?_, by simpa [Access.rel] using hal, rfl⟩
  simpa [inWindow, Access.rel] using hlt

/-- An internal event has no access (30_encoding.md R76). -/
theorem of_none {i : Instr} (h : encode i = none) : Statement i := by
  intro a ha
  rw [h] at ha
  cases ha

theorem nop : Statement .nop := of_word rfl
theorem submit (dr dg db : Byte) : Statement (.submit dr dg db) := of_word rfl
theorem start : Statement .start := of_word rfl
theorem illegal (w : Word) : Statement (.illegal w) := of_word rfl
theorem rdStatus : Statement .rdStatus := of_offset rfl rfl (by decide) (by decide)
theorem rdTimer : Statement .rdTimer := of_offset rfl rfl (by decide) (by decide)
theorem rdAct0 : Statement .rdAct0 := of_offset rfl rfl (by decide) (by decide)
theorem rdAct1 : Statement .rdAct1 := of_offset rfl rfl (by decide) (by decide)
theorem rdAct2 : Statement .rdAct2 := of_offset rfl rfl (by decide) (by decide)
theorem rdAct3 : Statement .rdAct3 := of_offset rfl rfl (by decide) (by decide)
theorem rdPnd0 : Statement .rdPnd0 := of_offset rfl rfl (by decide) (by decide)
theorem rdPnd1 : Statement .rdPnd1 := of_offset rfl rfl (by decide) (by decide)
theorem rdPnd2 : Statement .rdPnd2 := of_offset rfl rfl (by decide) (by decide)
theorem rdPnd3 : Statement .rdPnd3 := of_offset rfl rfl (by decide) (by decide)
theorem expire : Statement .expire := of_none rfl
theorem timeTick : Statement .timeTick := of_none rfl

end Sys2Proof.Laws.EncodedAccess
end

