-- ==== Sys2Proof/Tests/Slice0.lean ====
section
/-! SUPPORT. The model's own tests: ill-formed terms, words of the spec's tables, one step each of the vectors of
95_test_vectors.md, and a witness for the hypotheses of each statement. Expected values are the spec's. -/

namespace Sys2Proof.Tests

open Sys2Proof.Machine Sys2Proof.Spec

/-- A field of the next state, if there is one. -/
def field {α : Type} (f : State → α) : Host.Outcome State Fault Refusal → Option α
  | .next t => some (f t)
  | .fault _ => none
  | .refused _ => none

/-- The reset state with a silent host and a delay of 500, the value the spec's vectors take (95_test_vectors.md,
conventions). -/
def atReset : State := { State.reset with hostLater := .silent, cfg := ⟨.frameStart, 499⟩ }

/-- The frame of SUBMIT 80, 20, 50 (B1). -/
def frameB1 : Frame := ⟨⟨some .l1, 20#7⟩, ⟨some .l2, 50#7⟩, ⟨some .l0, 80#7⟩, ⟨none, 100#7⟩⟩

/-- The trace of program P1 up to its second STEP. -/
def traceP1 : List Event :=
  [.submit 0 80 20 50, .line 0 .l0 true, .line 0 .l1 true, .line 0 .l2 true, .swap 0,
   .arm 0 2000 (.entry 0 (some .l1) 20 2000), .line 2000 .l1 false, .arm 2000 3000 (.entry 1 (some .l2) 50 5000)]

/-- Program P1 at time 3000 (RV3). -/
def at3000 : State :=
  { atReset with
    act := frameB1
    pnd := frameB1
    actCur := 2#3
    curLine := some .l2
    lines := ⟨true, false, true⟩
    tcnt := 2000#16
    tarmed := true
    started := true
    now := 3000
    trace := traceP1 }

/-- Program P1 at time 2000, right after its second STEP: the instant its L1 falls. -/
def at2000 : State := { at3000 with tcnt := 3000#16, now := 2000 }

/-- Program P1 at time 10000, before its frame-exhausted STEP. -/
def at10000 : State :=
  { at3000 with
    actCur := 4#3
    curLine := none
    lines := ⟨false, false, false⟩
    tcnt := 0#16
    now := 10000
    trace := traceP1 ++ [.line 5000 .l2 false, .arm 5000 3000 (.entry 2 (some .l0) 80 8000), .line 8000 .l0 false,
      .arm 8000 2000 (.entry 3 none 100 10000)] }

/-- The state of Q1, at the expiry of time 2000. -/
def atQ1 : State :=
  { atReset with
    act := frameB1
    actCur := 1#3
    curLine := some .l1
    lines := ⟨true, true, true⟩
    tarmed := true
    started := true
    now := 2000 }

/-- The state of Q2: an exhausted frame and a pending one. -/
def atQ2 : State :=
  { atReset with
    pnd := ⟨⟨some .l0, 10#7⟩, ⟨some .l1, 20#7⟩, ⟨some .l2, 30#7⟩, ⟨none, 100#7⟩⟩
    pndV := true
    tarmed := true
    started := true }

/-- A faulted state, that of 2.8. -/
def atFault : State := { at3000 with fault := .illegalCmd }

/-! ### Well-formedness (41_commands.md R98) -/

theorem test_wf_refuses_nop_word : (Instr.illegal 0x00000000#32).wf = false := by decide
theorem test_wf_refuses_submit_word : (Instr.illegal 0x10501432#32).wf = false := by decide
theorem test_wf_refuses_start_word : (Instr.illegal 0x20000000#32).wf = false := by decide
theorem test_wf_admits_reserved_op : (Instr.illegal 0x30000000#32).wf = true := by decide

/-! ### Decoding: words written out from 30_encoding.md R68 to R70, R72, R73 and 10_state.md R34 -/

theorem test_decode_nop : decodeTableWord 32 0b00000000000000000000000000000000 = some .nop := by decide
theorem test_decode_submit :
    decodeTableWord 32 0b00010000010100000001010000110010 = some (.submit 80#8 20#8 50#8) := by decide
theorem test_decode_start : decodeTableWord 32 0b00100000000000000000000000000000 = some .start := by decide
/-- I1 to I6 of vector table 2.6. -/
theorem test_decode_illegal :
    [0x30000000, 0xF0000000, 0x00000001, 0x11000000, 0x2000FFFF, 0x20000001].map (decodeTableWord 32) =
      [some (.illegal 0x30000000#32), some (.illegal 0xF0000000#32), some (.illegal 0x00000001#32),
       some (.illegal 0x11000000#32), some (.illegal 0x2000FFFF#32), some (.illegal 0x20000001#32)] := by decide
theorem test_decode_reads :
    [0x04, 0x08, 0x10, 0x14, 0x18, 0x1C, 0x20, 0x24, 0x28, 0x2C].map (decodeTableWord 8) =
      [some .rdStatus, some .rdTimer, some .rdAct0, some .rdAct1, some .rdAct2, some .rdAct3, some .rdPnd0, some .rdPnd1,
       some .rdPnd2, some .rdPnd3] := by decide
theorem test_decode_rejects :
    decode (.read 0x0C 4) = .error .unmapped ∧ decode (.read 0x30 4) = .error .unmapped ∧
      decode (.read 0x06 4) = .error .misaligned ∧ decode (.read 0x04 1) = .error .badSize ∧
      decode (.read 0x00 4) = .error .wrongDirection ∧ decode (.write 0x04 [0#8, 0#8, 0#8, 0#8]) = .error .wrongDirection ∧
      decode (.write 0x00 [0#8, 0#8]) = .error .badSize ∧ decode (.read 64 4) = .error .outsideWindow ∧
      decode (.read (-1) 4) = .error .outsideWindow := by decide
/-- The internal events have no bits (30_encoding.md R76). -/
theorem test_decode_events : decodeTableWord 0 0 = none := by decide

/-- A row's word is the first instruction after reset. -/
theorem test_first_word_runs :
    field (·.fault) (step (State.reset.withFetchWord 32 0x30000000)) = some .illegalCmd ∧
      field (·.started) (step (State.reset.withFetchWord 32 0x20000000)) = some true ∧
      field (·.pndV) (step (State.reset.withFetchWord 32 0x10000000)) = some true ∧
      field (·.reply) (step (State.reset.withFetchWord 8 0x04)) = some (some [0x70#8, 0#8, 0#8, 0#8]) := by decide

/-! ### The sorter (table 2.1, the reference network) -/

/-- S5, S6 and the tie S14. -/
theorem test_sort3Ref :
    sort3Ref ⟨some .l0, 80#7⟩ ⟨some .l1, 20#7⟩ ⟨some .l2, 50#7⟩ = (⟨some .l1, 20#7⟩, ⟨some .l2, 50#7⟩, ⟨some .l0, 80#7⟩) ∧
    sort3Ref ⟨some .l0, 80#7⟩ ⟨some .l1, 50#7⟩ ⟨some .l2, 20#7⟩ = (⟨some .l2, 20#7⟩, ⟨some .l1, 50#7⟩, ⟨some .l0, 80#7⟩) ∧
    sort3Ref ⟨some .l0, 100#7⟩ ⟨some .l1, 100#7⟩ ⟨some .l2, 0#7⟩ =
      (⟨some .l2, 0#7⟩, ⟨some .l0, 100#7⟩, ⟨some .l1, 100#7⟩) := by decide
/-- The other order S14 allows. -/
theorem test_sort3_tie :
    sort3 ⟨true, false, false⟩ ⟨some .l0, 100#7⟩ ⟨some .l1, 100#7⟩ ⟨some .l2, 0#7⟩ =
      (⟨some .l2, 0#7⟩, ⟨some .l1, 100#7⟩, ⟨some .l0, 100#7⟩) := by decide

/-! ### Commands (tables 2.3, 2.5, 2.6) -/

/-- B1. -/
theorem test_submit_b1 :
    field (fun t => (t.pnd, t.pndV, statusWord t, t.trace)) (exec (.submit 80#8 20#8 50#8) atReset) =
      some (frameB1, true, 0x00000071#32, [.submit 0 80 20 50]) := by decide
/-- B5: the saturated values of the event. -/
theorem test_submit_saturates :
    field (·.trace) (exec (.submit 101#8 7#8 255#8) atReset) = some [.submit 0 100 7 100] := by decide
/-- T1. -/
theorem test_start_idle :
    field (fun t => (statusWord t, t.tcnt, t.trace)) (exec .start atReset) =
      some (0x00000472#32, 500#16, [.arm 0 500 .idle]) := by decide
/-- T2, RV2. -/
theorem test_start_swaps :
    field (fun t => (statusWord t, t.tcnt, t.trace)) (exec .start { atReset with pnd := frameB1, pndV := true }) =
      some (0x000007A6#32, 2000#16, [.line 0 .l0 true, .line 0 .l1 true, .line 0 .l2 true, .swap 0,
        .arm 0 2000 (.entry 0 (some .l1) 20 2000)]) := by decide
/-- T3. -/
theorem test_start_twice :
    field (fun t => (statusWord t, t.trace))
      (exec .start { atReset with started := true, tarmed := true, tcnt := 500#16 }) =
      some (0x00002472#32, [.fault 0 .startTwice]) := by decide
/-- I1. -/
theorem test_illegal :
    field (fun t => (statusWord t, t.trace)) (exec (.illegal 0x30000000#32) atReset) =
      some (0x00001070#32, [.fault 0 .illegalCmd]) := by decide
/-- 41_commands.md R93, example. -/
theorem test_nop : field statusWord (exec .nop atReset) = some 0x00000070#32 := by decide

/-! ### Reads (2.4) -/

/-- RV3. -/
theorem test_rd_status_rv3 : field (·.reply) (exec .rdStatus at3000) = some (some [0xCA#8, 0x06#8, 0#8, 0#8]) := by decide
theorem test_rd_timer_rv3 : field (·.reply) (exec .rdTimer at3000) = some (some [0xD0#8, 0x07#8, 0#8, 0#8]) := by decide
/-- RV2: ACT0..3 = 0x114, 0x232, 0x050, 0x364. -/
theorem test_rd_act :
    field (·.reply) (exec .rdAct0 at3000) = some (some [0x14#8, 0x01#8, 0#8, 0#8]) ∧
      field (·.reply) (exec .rdAct1 at3000) = some (some [0x32#8, 0x02#8, 0#8, 0#8]) ∧
      field (·.reply) (exec .rdAct2 at3000) = some (some [0x50#8, 0x00#8, 0#8, 0#8]) ∧
      field (·.reply) (exec .rdAct3 at3000) = some (some [0x64#8, 0x03#8, 0#8, 0#8]) := by decide
/-- B1: PND0..3. -/
theorem test_rd_pnd :
    field (·.reply) (exec .rdPnd0 at3000) = some (some [0x14#8, 0x01#8, 0#8, 0#8]) ∧
      field (·.reply) (exec .rdPnd1 at3000) = some (some [0x32#8, 0x02#8, 0#8, 0#8]) ∧
      field (·.reply) (exec .rdPnd2 at3000) = some (some [0x50#8, 0x00#8, 0#8, 0#8]) ∧
      field (·.reply) (exec .rdPnd3 at3000) = some (some [0x64#8, 0x03#8, 0#8, 0#8]) := by decide

/-! ### The sequencer (2.9) -/

/-- Q1. -/
theorem test_expire_q1 :
    field (fun t => (t.curLine, t.actCur, t.tcnt, t.trace)) (exec .expire atQ1) =
      some (some .l2, 2#3, 3000#16, [.line 2000 .l1 false, .arm 2000 3000 (.entry 1 (some .l2) 50 5000)]) := by decide
/-- P6: the same STEP under ARM_TIME arms 5000. -/
theorem test_expire_armTime :
    field (·.tcnt) (exec .expire { atQ1 with cfg := ⟨.armTime, 499⟩ }) = some 5000#16 := by decide
/-- Q2. -/
theorem test_expire_q2 :
    field (fun t => (t.pndV, t.actCur, t.curLine, t.tcnt, t.act)) (exec .expire atQ2) =
      some (false, 1#3, some .l0, 1000#16, atQ2.pnd) := by decide
/-- Q3. -/
theorem test_expire_q3 :
    field (fun t => (t.tcnt, t.trace)) (exec .expire { atQ2 with pndV := false }) =
      some (500#16, [.arm 0 500 .idle]) := by decide
/-- Q4. -/
theorem test_time_tick :
    field (fun t => (t.now, t.tcnt)) (exec .timeTick { atReset with tarmed := true, tcnt := 5#16 }) = some (1, 4#16) ∧
      field (·.now) (exec .timeTick { atReset with tarmed := true }) = none := by decide
/-- Q5: the counts of (2,0) (0,100) (1,100) (3,100) under both references. -/
theorem test_countdowns :
    [(0, 0), (100, 0), (100, 100), (100, 100)].map (fun p => countdown .frameStart p.1 p.2) = [0, 10000, 0, 0] ∧
      [(0, 0), (100, 0), (100, 100), (100, 100)].map (fun p => countdown .armTime p.1 p.2) = [0, 10000, 10000, 10000] := by
  decide

/-! ### Bus faults (2.7) and the faulted state (2.8) -/

/-- A1 to A7: each leaves STATUS = 0x00003070. -/
theorem test_bad_accesses :
    [Access.read 0x04 1, .read 0x00 4, .write 0x04 [0#8, 0#8, 0#8, 0#8], .read 0x0C 4, .read 0x06 4, .read 0x30 4,
      .write 0x00 [0#8, 0#8]].map (fun a => field statusWord (step { atReset with schedule := [.access a] })) =
      List.replicate 7 (some 0x00003070#32) := by decide
/-- F1 to F4. -/
theorem test_faulted_reads :
    [Access.read 0x04 4, .read 0x00 4, .read 0x04 1, .read 0x0C 4].map
      (fun a => field (fun t => (t.reply, t.fault)) (step { atFault with schedule := [.access a] })) =
      [some (some [0xCA#8, 0x16#8, 0#8, 0#8], .illegalCmd), some (some [0#8, 0#8, 0#8, 0#8], .illegalCmd),
       some (some [0#8], .illegalCmd), some (some [0#8, 0#8, 0#8, 0#8], .illegalCmd)] := by decide
/-- F5, F6, F7. -/
theorem test_faulted_submit_tick_reset :
    field (fun t => (t.pnd, t.pndV)) (exec (.submit 1#8 2#8 3#8) atFault) = some (frameB1, false) ∧
      field (fun t => (t.now, t.tcnt)) (step atFault) = some (3001, 2000#16) ∧
      field statusWord (step { atFault with schedule := [.reset] }) = some 0x00000070#32 := by decide

/-! ### The producer (2.2) and the host text (30_encoding.md R77, R78) -/

theorem test_toDuty :
    [Channel.ratio 0 1, .ratio 1 1, .ratio 8 10, .ratio 4 1000, .ratio 5 1000, .ratio 125 1000, .ratio 994 1000,
      .ratio 995 1000, .ratio 3 2, .ratio (-2) 10, .ratio (-4) 1000, .nan].map toDuty =
      [some 0, some 100, some 80, some 0, some 1, some 13, some 99, some 100, some 100, some 0, some 0, none] := by decide
theorem test_assemble_range :
    assembleSubmit 80 20 50 = .ok (.write 0 [0x32#8, 0x14#8, 0x50#8, 0x10#8]) ∧
      assembleSubmit 256 0 0 = .error .operandRange := by decide

/-! ### Witnesses: for each statement with hypotheses, a state and operands that meet them -/

theorem frameB1_wellFormed : frameB1.WellFormed := ⟨rfl, by decide, by decide, by decide, by decide⟩

theorem at3000_inv : Inv at3000 where
  cursorLow := by decide
  cursorHigh := by decide
  exhausted := by decide
  before h := absurd h (by decide)
  after _ := ⟨frameB1_wellFormed, rfl, by
    intro j k hj
    obtain rfl | rfl | rfl : j = 0 ∨ j = 1 ∨ j = 2 := by omega
    all_goals cases k <;> decide⟩
  notSubmitted := by decide
  pending _ := frameB1_wellFormed
  notStarted := by decide
  armed _ := rfl

theorem at2000_inv : Inv at2000 where
  cursorLow := at3000_inv.cursorLow
  cursorHigh := at3000_inv.cursorHigh
  exhausted := at3000_inv.exhausted
  before h := absurd h (by decide)
  after _ := ⟨frameB1_wellFormed, rfl, (at3000_inv.after rfl).levels⟩
  notSubmitted := at3000_inv.notSubmitted
  pending _ := frameB1_wellFormed
  notStarted := by decide
  armed _ := rfl

theorem at10000_inv : Inv at10000 where
  cursorLow := by decide
  cursorHigh := by decide
  exhausted _ := rfl
  before h := absurd h (by decide)
  after _ := ⟨frameB1_wellFormed, rfl, by
    intro j k hj
    obtain rfl | rfl | rfl : j = 0 ∨ j = 1 ∨ j = 2 := by omega
    all_goals cases k <;> decide⟩
  notSubmitted := by decide
  pending _ := frameB1_wellFormed
  notStarted := by decide
  armed _ := rfl

theorem at3000_clock : Clock at3000 := fun _ _ =>
  ⟨2000, 3000, .entry 1 (some .l2) 50 5000, rfl, rfl, by decide, rfl, rfl, rfl, rfl, 0, rfl, rfl, rfl⟩

theorem at2000_clock : Clock at2000 := fun _ _ =>
  ⟨2000, 3000, .entry 1 (some .l2) 50 5000, rfl, rfl, by decide, rfl, rfl, rfl, rfl, 0, rfl, rfl, rfl⟩

theorem at10000_clock : Clock at10000 := fun _ _ =>
  ⟨8000, 2000, .entry 3 none 100 10000, rfl, rfl, by decide, rfl, rfl, rfl, rfl, 0, rfl, rfl, rfl⟩

theorem at3000_pulses : Pulses at3000 := by intro k; cases k <;> decide

theorem at3000_ordered : TraceOrdered at3000 := by constructor <;> decide

/-- StepKeepsInv, StepKeepsClock, StepKeepsPulses, StepKeepsTraceOrder, ParametersFixed. -/
theorem witness_running_state :
    Inv at3000 ∧ Clock at3000 ∧ Pulses at3000 ∧ TraceOrdered at3000 ∧ ∃ t, step at3000 = .next t :=
  ⟨at3000_inv, at3000_clock, at3000_pulses, at3000_ordered, _, rfl⟩

/-- LineHighForItsDuty: one line low at the very instant its duty ends, one high. -/
theorem witness_line_duty :
    (Inv at2000 ∧ Clock at2000 ∧ at2000.cfg.armReference = .frameStart ∧ at2000.fault = .noFault ∧ at2000.tarmed = true ∧
      at2000.tcnt ≠ 0#16 ∧ lastSwap at2000.trace = some 0 ∧
      lastArm at2000.trace = some (2000, 3000, .entry 1 (some .l2) 50 5000)) ∧
      (at2000.act.e0 ∈ [at2000.act.e0, at2000.act.e1, at2000.act.e2] ∧ at2000.act.e0.line = some .l1 ∧
        at2000.lines.get .l1 = false ∧ at2000.now = 20 * 100) ∧
      (at2000.act.e1 ∈ [at2000.act.e0, at2000.act.e1, at2000.act.e2] ∧ at2000.act.e1.line = some .l2 ∧
        at2000.lines.get .l2 = true ∧ at2000.now < 50 * 100) :=
  ⟨⟨at2000_inv, at2000_clock, by decide⟩, by decide, by decide⟩

/-- FrameLastsFrameLength. -/
theorem witness_frame_end :
    Inv at10000 ∧ Clock at10000 ∧ at10000.cfg.armReference = .frameStart ∧ at10000.fault = .noFault ∧
      at10000.tarmed = true ∧ at10000.tcnt = 0#16 ∧ at10000.actCur = 4#3 ∧ lastSwap at10000.trace = some 0 ∧
      lastArm at10000.trace = some (8000, 2000, .entry 3 none 100 10000) :=
  ⟨at10000_inv, at10000_clock, by decide⟩

/-- InstantChainBound and WaitSettles, with an expiry enabled; ArmedTimerFires, at a count of 0 and above it. -/
theorem witness_chain :
    (Inv at10000 ∧ at10000.schedule = [] ∧ at10000.hostLater = .silent ∧ at10000.expiryEnabled = true) ∧
      (at3000.schedule = [] ∧ at3000.hostLater = .silent ∧ at3000.fault = .noFault ∧ at3000.tarmed = true ∧ at3000.tcnt = 2000#16) ∧
      (at10000.schedule = [] ∧ at10000.fault = .noFault ∧ at10000.tarmed = true ∧ at10000.tcnt = 0#16) :=
  ⟨⟨at10000_inv, by decide⟩, by decide, by decide⟩

/-- DecodeInvertsEncode and EncodeInvertsDecode, at the boundary operands of SUBMIT. -/
theorem witness_encode :
    (Instr.submit 0#8 255#8 100#8).wf = true ∧
      encode (.submit 0#8 255#8 100#8) = some (.write 0 [0x64#8, 0xFF#8, 0x00#8, 0x10#8]) ∧
      decode (.write 0 [0x64#8, 0xFF#8, 0x00#8, 0x10#8]) = .ok (.submit 0#8 255#8 100#8) ∧
      decode (.read 0x2C 4) = .ok .rdPnd3 := by decide

/-- ByteLanesLittleEndian: the first and the last lane. -/
theorem witness_lanes :
    (lanesOfWord 0x10501432#32)[0]? = some 0x32#8 ∧ (lanesOfWord 0x10501432#32)[3]? = some 0x10#8 := by decide

/-- StepRunsDecodedAccess, RegisterReadAnswers, FaultedReads, FaultHaltsBlock, StepRunsEnabledEvent: a next turn of each kind,
in a faulted state too, at both ends of the window. -/
theorem witness_turns :
    State.nextTurn { at3000 with schedule := [.access (.read 0x2C 4), .block] } =
        (.access (.read 0x2C 4), { at3000 with schedule := [.block] }) ∧
      decode (.read 0x2C 4) = .ok .rdPnd3 ∧ registerValue at3000 0x2C = some 0x364 ∧
      registerValue at3000 0x04 = some 0x6CA ∧
      State.nextTurn { at3000 with schedule := [.block] } = (.block, at3000) ∧ at3000.nextTurn = (.block, at3000) ∧
      atFault.fault ≠ .noFault ∧ registerValue atFault 0x0C = none ∧
      State.nextTurn { atFault with schedule := [.access (.read 63 1)] } = (.access (.read 63 1), atFault) ∧
      State.nextTurn { atFault with schedule := [.access (.write 0 [1#8])] } = (.access (.write 0 [1#8]), atFault) ∧
      State.nextTurn { atFault with schedule := [.access (.write 63 [])] } = (.access (.write 63 []), atFault) ∧
      atFault.nextTurn = (.block, atFault) := by decide

/-- TurnsOfTheHost: a state under each clause. -/
theorem witness_turns_of_the_host :
    ({ at3000 with schedule := [.reset, .block] } : State).schedule = .reset :: [.block] ∧
      (at3000.schedule = [] ∧ at3000.hostLater = .silent) ∧
      (State.reset.schedule = [] ∧ State.reset.hostLater = .goesOn 0) := by decide

/-- BadAccessFaults: each way to be of bad shape, at both ends of the window. -/
theorem witness_bad_shapes :
    at3000.fault = .noFault ∧ badShape at3000 (.read 0 4) ∧ badShape at3000 (.read 63 4) ∧ badShape at3000 (.read 4 2) ∧
      badShape at3000 (.write 0 []) ∧ badShape at3000 (.write 63 [0#8, 0#8, 0#8, 0#8]) :=
  ⟨rfl, .inr rfl, .inr rfl, .inl (by decide), .inl (by decide), .inr (by decide)⟩

/-- OutsideWindowLeavesBlock and WindowDecode: the addresses next to the window, and its ends. -/
theorem witness_window :
    (Access.read (-1) 4).rel < 0 ∧ 64 ≤ (Access.write 64 []).rel ∧ inWindow (relOf 128 127) = false ∧
      inWindow (relOf 128 128) = true ∧ inWindow (relOf 128 191) = true ∧ inWindow (relOf 128 192) = false := by decide

/-- The commands' statements: a state without a fault that is not started, exhausted, with nothing and with a frame pending;
one that is started; and DistinctKeysSortOneWay's keys. -/
theorem witness_commands :
    (atReset.fault = .noFault ∧ atReset.started = false ∧ 4 ≤ atReset.actCur.toNat ∧ atReset.pndV = false) ∧
      (let s : State := { atReset with pnd := frameB1, pndV := true };
        s.fault = .noFault ∧ s.started = false ∧ 4 ≤ s.actCur.toNat ∧ s.pndV = true ∧ s.curLine = none) ∧
      (at3000.fault = .noFault ∧ at3000.started = true) ∧
      ((20#7 : Duty) ≠ 50#7 ∧ (20#7 : Duty) ≠ 80#7 ∧ (50#7 : Duty) ≠ 80#7) := by decide

/-- SorterIsTheRelation, right to left, on a tie: the order the reference network does not give. -/
theorem witness_sorter :
    [(⟨some .l1, 50#7⟩ : Entry), ⟨some .l0, 50#7⟩, ⟨some .l2, 80#7⟩].Perm
        [⟨some .l0, 50#7⟩, ⟨some .l1, 50#7⟩, ⟨some .l2, 80#7⟩] ∧
      sort3 ⟨true, false, false⟩ ⟨some .l0, 50#7⟩ ⟨some .l1, 50#7⟩ ⟨some .l2, 80#7⟩ ≠
        sort3Ref ⟨some .l0, 50#7⟩ ⟨some .l1, 50#7⟩ ⟨some .l2, 80#7⟩ := by decide

/-- ExpireDequeuesEntry, OneArmPerStep, RunningFrameIgnoresPending: the first entry of a frame after its swap's and, under
both references, an entry inside it, and the sentinel. -/
theorem witness_entry :
    (atQ1.tarmed = true ∧ atQ1.tcnt = 0#16 ∧ atQ1.fault = .noFault ∧ atQ1.actCur.toNat = 1 ∧ (1 : Nat) < 4 ∧
      atQ1.act.get 1 = ⟨some .l2, 50#7⟩ ∧ (50#7 : Duty).toNat = 50 ∧ (atQ1.act.get 0).duty.toNat = 20 ∧ 20 ≤ 50) ∧
      (let s : State := { atQ1 with actCur := 0#3, curLine := none, cfg := ⟨.armTime, 0⟩ };
        s.tarmed = true ∧ s.tcnt = 0#16 ∧ s.fault = .noFault ∧ s.actCur.toNat = 0 ∧ (s.act.get 0).duty.toNat = 20) ∧
      (let s : State := { atQ1 with actCur := 3#3, curLine := some .l0 };
        s.actCur.toNat = 3 ∧ s.act.get 3 = ⟨none, 100#7⟩ ∧ (s.act.get 2).duty.toNat = 80) := by decide

/-- ExpireSwapsFrame; ExpireIdles and SubmitRacesExpiry. -/
theorem witness_swap_and_idle :
    (atQ2.tarmed = true ∧ atQ2.tcnt = 0#16 ∧ atQ2.fault = .noFault ∧ 4 ≤ atQ2.actCur.toNat ∧ atQ2.pndV = true ∧
      atQ2.curLine = none) ∧
      (at10000.tarmed = true ∧ at10000.tcnt = 0#16 ∧ at10000.fault = .noFault ∧ 4 ≤ at10000.actCur.toNat ∧
        at10000.pndV = false ∧ encode (.submit 0#8 50#8 50#8) = some (.write 0 [50#8, 50#8, 0#8, 0x10#8])) := by decide

/-- TimeTickEffect: counting, disarmed, and frozen at 0 by a fault; EventsExclusive on both sides. -/
theorem witness_tick :
    ¬(at3000.tarmed = true ∧ at3000.tcnt = 0#16 ∧ at3000.fault = .noFault) ∧
      ¬(atReset.tarmed = true ∧ atReset.tcnt = 0#16 ∧ atReset.fault = .noFault) ∧
      (let s : State := { at10000 with fault := .badAccess };
        ¬(s.tarmed = true ∧ s.tcnt = 0#16 ∧ s.fault = .noFault)) ∧
      (at10000.tarmed = true ∧ at10000.tcnt = 0#16 ∧ at10000.fault = .noFault) := by decide

/-- CountdownRange. -/
theorem witness_countdown : frameB1.WellFormed := frameB1_wellFormed

/-- FrameRegisterWriters, TimePassesOnlyInTicks: a swap that changes ACT, a SUBMIT that changes PND, a tick. -/
theorem witness_writers :
    field (fun t => decide (t.act ≠ atQ2.act) && !t.pndV) (exec .expire atQ2) = some true ∧
      field (fun t => decide (t.pnd ≠ atReset.pnd) && t.pndV) (exec (.submit 80#8 20#8 50#8) atReset) = some true ∧
      field (·.now) (exec .timeTick at3000) = some 3001 := by decide

/-- FaultsArePrecise: a faulting read and a faulting write. -/
theorem witness_precise :
    at3000.fault = .noFault ∧
      field (·.fault) (step { at3000 with schedule := [.access (.read 0x0C 4)] }) = some .badAccess ∧
      field (·.fault) (step { at3000 with schedule := [.access (.write 0 [0#8, 0#8, 0#8, 0x20#8])] }) =
        some .startTwice := by decide

/-- ResetRestoresBlock, from a faulted state. -/
theorem witness_reset : State.nextTurn { atFault with schedule := [.reset] } = (.reset, atFault) := by decide

/-- DisciplinedHostNeverFaults: a host that submits, starts once, reads, and starts again after a reset. -/
theorem witness_safe :
    Safe { atReset with schedule := [.access (.write 0 [0x32#8, 0x14#8, 0x50#8, 0x10#8]),
      .access (.write 0 [0#8, 0#8, 0#8, 0x20#8]), .block, .access (.read 0x04 4), .reset,
      .access (.write 0 [0#8, 0#8, 0#8, 0x20#8])] } := by
  refine ⟨rfl, fun m => ?_⟩
  simp only [atReset, batches_silent, List.append_nil]
  decide

/-- ResetMeetsInvariants: a silent host that only starts the block. -/
theorem witness_reset_host (m : Nat) :
    disciplined false ([.access (.write 0 [0#8, 0#8, 0#8, 0x20#8])] ++ HostLater.batches .silent m) = true := by
  simp only [batches_silent, List.append_nil]
  decide

/-- A move of the block answers, keeps the turns to come and the host silent. -/
theorem blockMove_answers (s : State) :
    ∃ t, blockMove s = .next t ∧ t.schedule = s.schedule ∧ t.hostLater = s.hostLater := by
  cases h : s.expiryEnabled
  · exact ⟨_, by simp [blockMove, enabledEvent, h, exec, execTimeTick_of_enabled h]; rfl, by simp, by simp⟩
  · refine ⟨_, by simp [blockMove, enabledEvent, h, exec, execExpire_of_enabled h]; rfl, ?_⟩
    rcases sequencerStep_cases { s with tarmed := false } with ⟨-, e⟩ | ⟨-, -, e⟩ | ⟨-, -, e⟩ <;> simp [e]

/-- The state after a move of the block. -/
def afterMove (s : State) : State :=
  match blockMove s with
  | .next t => t
  | .fault _ => s
  | .refused _ => s

/-- The states of a block that is left to itself. -/
def alone (s : State) : Nat → State
  | 0 => s
  | n + 1 => afterMove (alone s n)

theorem alone_silent (s : State) (h : s.schedule = []) (hl : s.hostLater = .silent) (n : Nat) :
    (alone s n).schedule = [] ∧ (alone s n).hostLater = .silent ∧ blockMove (alone s n) = .next (alone s (n + 1)) := by
  have next : ∀ k, blockMove (alone s k) = .next (alone s (k + 1)) ∧ (alone s (k + 1)).schedule = (alone s k).schedule ∧
      (alone s (k + 1)).hostLater = (alone s k).hostLater := fun k => by
    obtain ⟨t, ht, hs, hl⟩ := blockMove_answers (alone s k)
    simp [alone, afterMove, ht, hs, hl]
  induction n with
  | zero => exact ⟨h, hl, (next 0).1⟩
  | succ n ih => exact ⟨(next n).2.1.trans ih.1, (next n).2.2.trans ih.2.1, (next (n + 1)).1⟩

/-- FairRunsProgress and MachineRunsAreFair: program P1 from time 3000, left to itself with its timer armed. -/
theorem witness_fair_run :
    FairRun (alone at3000) (fun _ => .block) ∧ Inv (alone at3000 0) ∧ (alone at3000 0).tarmed = true ∧
      (∀ n, step (alone at3000 n) = .next (alone at3000 (n + 1))) ∧ ∀ n, (alone at3000 n).nextTurn.1 ≠ .reset := by
  have silent := alone_silent at3000 rfl rfl
  have turn : ∀ n, (alone at3000 n).nextTurn = (.block, alone at3000 n) := fun n =>
    nextTurn_silent (silent n).1 (silent n).2.1
  refine ⟨⟨fun n => ⟨_, _, (silent n).2.2⟩, fun n => by simp, fun n _ => ⟨n, le_refl n, .inl rfl⟩,
    fun n _ => ⟨n, le_refl n, .inl rfl⟩, fun _ => ⟨0, fun _ _ _ => rfl⟩⟩, at3000_inv, rfl, fun n => ?_, fun n => ?_⟩
  · simp only [step, nextTransaction, turn n, takeTurn]
    exact (silent n).2.2
  · simp [turn n]

/-- ToDutyRounds: the ends of the unit interval, and either side of it. -/
theorem witness_toDuty :
    (0 < 1000) ∧ ((-4 : Int) < 0) ∧ ((1000 : Int) < 1500) ∧ toDuty (.ratio 0 1000) = some 0 ∧
      toDuty (.ratio 1000 1000) = some 100 := by decide

end Sys2Proof.Tests
end

section
/-! The parameters are fixed (00_scope.md R9, R10): each kind of transaction keeps `cfg`, and so does the step. -/

namespace Sys2Proof.Machine

/-- STEP keeps the parameters on each of its paths (42_sequencer.md R106). -/
@[simp] theorem sequencerStep_cfg (s : State) : (sequencerStep s).cfg = s.cfg := by
  obtain ⟨-, e⟩ | ⟨-, -, e⟩ | ⟨-, -, e⟩ := sequencerStep_cases s
  · rw [e, stepEntry_cfg]
  · rw [e, stepEntry_cfg, swapFrame_cfg]
  · rw [e, stepIdle_cfg]

/-- An access that names no instruction can raise a fault and give a reply, and keeps the parameters. -/
@[simp] theorem badAccess_cfg (a : Access) (s : State) : (badAccess a s).cfg = s.cfg := by
  cases a with
  | read rel n => exact (State.answer_cfg _ _).trans (State.raiseFault_cfg _ s)
  | write rel data => exact State.raiseFault_cfg _ s

/-- Every instruction keeps the parameters. -/
theorem exec_cfg {i : Instr} {s t : State} (h : exec i s = .next t) : t.cfg = s.cfg := by
  obtain rfl | ⟨fr, fg, fb, -, -, rfl⟩ | ⟨-, -, -, rfl⟩ | ⟨-, -, -, rfl⟩ | ⟨w, -, -, rfl⟩ | ⟨-, -, w, rfl⟩ |
    ⟨-, -, rfl⟩ | ⟨-, -, rfl⟩ := exec_cases h
  case inl => rfl
  all_goals simp

/-- Settles O38: a transaction runs in the state with one turn taken off, which has the same parameters, and each kind of
transaction keeps them. -/
theorem parametersFixed : Obligations.ParametersFixed := by
  intro s t h
  obtain ⟨u, schedule, hostLater, hu, moved⟩ := step_cases h
  have hcfg : u.cfg = s.cfg := by rw [hu]
  rw [← hcfg]
  obtain ⟨i, hi⟩ | rfl | ⟨a, rfl⟩ := moved
  · exact exec_cfg hi
  · exact State.resetInput_cfg u
  · exact badAccess_cfg a u

end Sys2Proof.Machine
end

section
/-! The state family (10_state.md): what a transaction does to the frame registers and to the trace, and the invariants that
reset meets and every step keeps. -/

namespace Sys2Proof.Machine

/-! ### The STEP -/

/-- STEP arms the timer on each of its paths, so whether it was armed before makes no difference (42_sequencer.md R115). -/
theorem sequencerStep_of_tarmed (b : Bool) (s : State) : sequencerStep { s with tarmed := b } = sequencerStep s := by
  have entry : ∀ u : State, stepEntry { u with tarmed := b } = stepEntry u := fun u => by
    cases h : u.curLine <;> simp [stepEntry, turnOff, State.armTimer, State.setLine, h]
  have swap : swapFrame { s with tarmed := b } = { swapFrame s with tarmed := b } := rfl
  have idle : stepIdle { s with tarmed := b } = stepIdle s := rfl
  simp only [sequencerStep, entry, swap, idle]

/-- STEP either leaves the frame registers alone or, on an exhausted frame with a frame pending, swaps (42_sequencer.md R106,
R110). -/
theorem sequencerStep_frames (s : State) :
    ((sequencerStep s).act = s.act ∧ (sequencerStep s).pnd = s.pnd ∧ (sequencerStep s).pndV = s.pndV) ∨
      (4 ≤ s.actCur.toNat ∧ s.pndV = true ∧ (sequencerStep s).act = s.pnd ∧ (sequencerStep s).pnd = s.pnd ∧
        (sequencerStep s).pndV = false) := by
  obtain ⟨-, e⟩ | ⟨hcur, hpndV, e⟩ | ⟨-, -, e⟩ := sequencerStep_cases s
  · exact .inl (by simp [e])
  · exact .inr ⟨hcur, hpndV, by simp [e]⟩
  · exact .inl (by simp [e])

/-! ### The frame registers -/

/-- What an instruction does to ACT, PND and PND_V: nothing, a new pending frame, or a swap. -/
theorem exec_frames {i : Instr} {s t : State} (h : exec i s = .next t) :
    (t.act = s.act ∧ t.pnd = s.pnd ∧ t.pndV = s.pndV) ∨
      ((∃ fr fg fb, i = .submit fr fg fb) ∧ t.act = s.act ∧ t.pndV = true) ∨
      ((i = .start ∨ i = .expire) ∧ 4 ≤ s.actCur.toNat ∧ s.pndV = true ∧ t.act = s.pnd ∧ t.pnd = s.pnd ∧
        t.pndV = false) := by
  obtain rfl | ⟨fr, fg, fb, rfl, -, rfl⟩ | ⟨-, -, -, rfl⟩ | ⟨rfl, -, -, rfl⟩ | ⟨w, -, -, rfl⟩ | ⟨-, -, w, rfl⟩ |
    ⟨rfl, -, rfl⟩ | ⟨-, -, rfl⟩ := exec_cases h
  · exact .inl ⟨rfl, rfl, rfl⟩
  · exact .inr (.inl ⟨⟨fr, fg, fb, rfl⟩, rfl, rfl⟩)
  · exact .inl (by simp)
  · exact (sequencerStep_frames { s with started := true }).imp_right fun swap => .inr ⟨.inl rfl, swap⟩
  · exact .inl (by simp)
  · exact .inl ⟨rfl, rfl, rfl⟩
  · exact (sequencerStep_frames { s with tarmed := false }).imp_right fun swap => .inr ⟨.inr rfl, swap⟩
  · exact .inl ⟨rfl, rfl, rfl⟩

/-- Settles O36: each of the three things an instruction can do to the frame registers has the writer the statement names. -/
theorem frameRegisterWriters : Obligations.FrameRegisterWriters := by
  intro i s t h
  obtain ⟨hact, hpnd, hpndV⟩ | ⟨hsubmit, hact, hpndV⟩ | ⟨hi, hcur, hv, hact, hpnd, hpndV⟩ := exec_frames h
  · exact ⟨fun hw => by simp [hact, hpndV] at hw, fun hw => by simp [hpnd, hpndV] at hw⟩
  · exact ⟨fun hw => by simp [hact, hpndV] at hw, fun _ => hsubmit⟩
  · exact ⟨fun _ => ⟨hi, hcur, hv, hact, hpndV⟩, fun hw => by simp [hpnd, hpndV] at hw⟩

/-! ### The trace -/

/-- Time does not run back, and the events that are new in `t` bear the time of `s`. -/
def ExtendsTrace (s t : State) : Prop :=
  s.now ≤ t.now ∧ ∃ es, t.trace = s.trace ++ es ∧ ∀ e ∈ es, e.time = s.now

/-- A transaction that writes neither NOW nor TRACE. -/
theorem ExtendsTrace.of_eq {s t : State} (hnow : t.now = s.now) (htrace : t.trace = s.trace) : ExtendsTrace s t :=
  ⟨hnow.ge, [], by simpa using htrace, by simp⟩

/-- A trace in time order stays so when it is extended by events of the present. -/
theorem ExtendsTrace.ordered {s t : State} (ht : ExtendsTrace s t) (h : TraceOrdered s) : TraceOrdered t := by
  obtain ⟨hnow, es, htrace, htime⟩ := ht
  obtain ⟨hsorted, hpast⟩ := h
  constructor
  · rw [htrace, List.map_append, List.pairwise_append]
    have present : es.map Event.time = List.replicate es.length s.now := List.map_eq_replicate_iff.mpr htime
    refine ⟨hsorted, by simp [present, List.pairwise_replicate], ?_⟩
    simpa [present] using fun e he _ => hpast e he
  · intro e he
    rw [htrace, List.mem_append] at he
    obtain he | he := he
    · exact (hpast e he).trans hnow
    · exact (htime e he).trans_le hnow

/-- An entry's STEP emits the turn-off of the current line and its arm. -/
theorem stepEntry_extendsTrace (s : State) : ExtendsTrace s (stepEntry s) := by
  refine ⟨(stepEntry_now s).ge, _, by rw [stepEntry_trace, turnOff_trace, List.append_assoc], ?_⟩
  cases s.curLine <;> simp [Event.time]

/-- STEP emits its events in the present. -/
theorem sequencerStep_extendsTrace (s : State) : ExtendsTrace s (sequencerStep s) := by
  obtain ⟨-, e⟩ | ⟨-, -, e⟩ | ⟨-, -, e⟩ := sequencerStep_cases s <;> rw [e]
  · exact stepEntry_extendsTrace s
  · obtain ⟨hnow, es, htrace, htime⟩ := stepEntry_extendsTrace (swapFrame s)
    exact ⟨hnow, _, by rw [htrace, swapFrame_trace, List.append_assoc], by simpa [Event.time] using htime⟩
  · exact ⟨le_rfl, _, stepIdle_trace s, by simp [Event.time]⟩

/-- Raising a fault emits at most its event. -/
theorem raiseFault_extendsTrace (c : FaultCode) (s : State) : ExtendsTrace s (s.raiseFault c) := by
  refine ⟨(State.raiseFault_now c s).ge, _, State.raiseFault_trace c s, ?_⟩
  split <;> simp [Event.time]

/-- Every instruction extends the trace. -/
theorem exec_extendsTrace {i : Instr} {s t : State} (h : exec i s = .next t) : ExtendsTrace s t := by
  obtain rfl | ⟨fr, fg, fb, -, -, rfl⟩ | ⟨-, -, -, rfl⟩ | ⟨-, -, -, rfl⟩ | ⟨w, -, -, rfl⟩ | ⟨-, -, w, rfl⟩ |
    ⟨-, -, rfl⟩ | ⟨-, -, rfl⟩ := exec_cases h
  · exact .of_eq rfl rfl
  · exact ⟨le_rfl, _, submitFrame_trace fr fg fb s, by simp [Event.time]⟩
  · exact raiseFault_extendsTrace _ s
  · exact sequencerStep_extendsTrace { s with started := true }
  · exact raiseFault_extendsTrace _ s
  · exact .of_eq rfl rfl
  · exact sequencerStep_extendsTrace { s with tarmed := false }
  · exact ⟨Nat.le_succ _, [], by simp, by simp⟩

/-- A bad access extends the trace. -/
theorem badAccess_extendsTrace (a : Access) (s : State) : ExtendsTrace s (badAccess a s) := by
  cases a with
  | read rel n => exact raiseFault_extendsTrace .badAccess s
  | write rel data => exact raiseFault_extendsTrace .badAccess s

/-- An empty trace is in time order. -/
theorem traceOrdered_of_nil {s : State} (h : s.trace = []) : TraceOrdered s := by
  simp [TraceOrdered, h]

/-- Settles O49: a reset empties the trace, and every other transaction extends it by events of the present. -/
theorem stepKeepsTraceOrder : Obligations.StepKeepsTraceOrder := by
  intro s t h hstep
  obtain ⟨u, schedule, hostLater, hu, moved⟩ := step_cases hstep
  have hord : TraceOrdered u := hu ▸ h
  obtain ⟨i, hi⟩ | rfl | ⟨a, rfl⟩ := moved
  · exact (exec_extendsTrace hi).ordered hord
  · exact traceOrdered_of_nil (State.resetInput_trace u)
  · exact (badAccess_extendsTrace a u).ordered hord

/-! ### What has happened since reset -/

@[simp] theorem stepEntry_swapped (s : State) : (stepEntry s).swapped = s.swapped := by
  cases h : s.curLine <;> simp [State.swapped, h, Event.isSwap]

@[simp] theorem stepEntry_submitted (s : State) : (stepEntry s).submitted = s.submitted := by
  cases h : s.curLine <;> simp [State.submitted, h, Event.isSubmit]

@[simp] theorem swapFrame_swapped (s : State) : (swapFrame s).swapped = true := by
  simp [State.swapped, Event.isSwap]

@[simp] theorem swapFrame_submitted (s : State) : (swapFrame s).submitted = s.submitted := by
  simp [State.submitted, Event.isSubmit]

@[simp] theorem stepIdle_swapped (s : State) : (stepIdle s).swapped = s.swapped := by
  simp [State.swapped, Event.isSwap]

@[simp] theorem stepIdle_submitted (s : State) : (stepIdle s).submitted = s.submitted := by
  simp [State.submitted, Event.isSubmit]

@[simp] theorem raiseFault_swapped (c : FaultCode) (s : State) : (s.raiseFault c).swapped = s.swapped := by
  by_cases h : s.fault = .noFault <;> simp [State.swapped, h, Event.isSwap]

@[simp] theorem raiseFault_submitted (c : FaultCode) (s : State) : (s.raiseFault c).submitted = s.submitted := by
  by_cases h : s.fault = .noFault <;> simp [State.submitted, h, Event.isSubmit]

@[simp] theorem submitFrame_swapped (fr fg fb : Byte) (s : State) : (submitFrame fr fg fb s).swapped = s.swapped := by
  simp [State.swapped, Event.isSwap]

@[simp] theorem submitFrame_submitted (fr fg fb : Byte) (s : State) : (submitFrame fr fg fb s).submitted = true := by
  simp [State.submitted, Event.isSubmit]

/-! ### The invariants: transactions that leave the frames alone -/

/-- The two states agree on everything that the invariants of the frames speak of. -/
structure SameFrames (s t : State) : Prop where
  act : t.act = s.act
  pnd : t.pnd = s.pnd
  actCur : t.actCur = s.actCur
  pndV : t.pndV = s.pndV
  curLine : t.curLine = s.curLine
  lines : t.lines = s.lines
  swapped : t.swapped = s.swapped
  submitted : t.submitted = s.submitted

/-- A state with the frames of an invariant one needs only the invariants of the timer. -/
theorem SameFrames.inv {s t : State} (same : SameFrames s t) (h : Inv s)
    (notStarted : t.started = false → t.tarmed = false ∧ t.tcnt = 0#16 ∧ t.swapped = false)
    (armed : t.started = true → t.tarmed = true) : Inv t where
  cursorLow := by rw [same.actCur]; exact h.cursorLow
  cursorHigh := by rw [same.actCur]; exact h.cursorHigh
  exhausted := by rw [same.actCur, same.curLine]; exact h.exhausted
  before hs := by
    obtain ⟨hact, hcur, hline, hlow⟩ := h.before (same.swapped ▸ hs)
    exact ⟨same.act.trans hact, same.actCur.trans hcur, same.curLine.trans hline, same.lines.trans hlow⟩
  after hs := by
    obtain ⟨hframe, hline, hlevels⟩ := h.after (same.swapped ▸ hs)
    constructor
    · rw [same.act]; exact hframe
    · rw [same.curLine, same.act, same.actCur]; exact hline
    · rw [same.act, same.lines, same.actCur]; exact hlevels
  notSubmitted := by rw [same.submitted, same.pnd, same.pndV]; exact h.notSubmitted
  pending := by rw [same.submitted, same.pnd]; exact h.pending
  notStarted := notStarted
  armed := armed

/-- Reset meets the invariants (10_state.md R41). -/
theorem inv_reset : Inv State.reset where
  cursorLow := by decide
  cursorHigh := by decide
  exhausted _ := rfl
  before _ := ⟨rfl, rfl, rfl, rfl⟩
  after h := nomatch h
  notSubmitted _ := ⟨rfl, rfl⟩
  pending h := nomatch h
  notStarted _ := ⟨rfl, rfl, rfl⟩
  armed h := nomatch h

/-- The reset input meets the invariants from any state (70_reset_and_hazards.md R155). -/
theorem resetInput_inv (s : State) : Inv s.resetInput :=
  SameFrames.inv (s := State.reset) ⟨rfl, rfl, rfl, rfl, rfl, rfl, rfl, rfl⟩ inv_reset inv_reset.notStarted inv_reset.armed

/-- A frame runs only after a swap (10_state.md R42). -/
theorem Inv.swapped_of_running {s : State} (h : Inv s) (hcur : s.actCur.toNat < 4) : s.swapped = true := by
  cases hs : s.swapped with
  | true => rfl
  | false => simp [(h.before hs).cursor] at hcur

/-- An exhausted frame has no current line (10_state.md R42). -/
theorem Inv.curLine_of_exhausted {s : State} (h : Inv s) (hcur : 4 ≤ s.actCur.toNat) : s.curLine = none :=
  h.exhausted (BitVec.eq_of_toNat_eq (le_antisymm h.cursorHigh hcur))

/-- A frame is pending only after a SUBMIT. -/
theorem Inv.submitted_of_pending {s : State} (h : Inv s) (hpnd : s.pndV = true) : s.submitted = true := by
  cases hs : s.submitted with
  | true => rfl
  | false => simp [(h.notSubmitted hs).2] at hpnd

/-- The timer is armed only after START (70_reset_and_hazards.md R162). -/
theorem Inv.started_of_armed {s : State} (h : Inv s) (ht : s.tarmed = true) : s.started = true := by
  cases hs : s.started with
  | true => rfl
  | false => simp [(h.notStarted hs).1] at ht

section
variable {s : State}

/-- Giving a reply writes nothing that an invariant speaks of. -/
theorem answer_inv (lanes : List Byte) (h : Inv s) : Inv (s.answer lanes) :=
  SameFrames.inv (s := s) ⟨rfl, rfl, rfl, rfl, rfl, rfl, rfl, rfl⟩ h h.notStarted h.armed

/-- Raising a fault writes FAULT and its event, which no invariant speaks of. -/
theorem raiseFault_inv (c : FaultCode) (h : Inv s) : Inv (s.raiseFault c) :=
  SameFrames.inv (s := s) (by constructor <;> simp) h (by simpa using h.notStarted) (by simpa using h.armed)

/-- A bad access keeps the invariants. -/
theorem badAccess_inv (a : Access) (h : Inv s) : Inv (badAccess a s) := by
  cases a with
  | read rel n => exact answer_inv _ (raiseFault_inv _ h)
  | write rel data => exact raiseFault_inv _ h

/-- A tick keeps the invariants: before START the timer is not armed, and its count stays 0. -/
theorem tickEffect_inv (h : Inv s) : Inv (tickEffect s) := by
  refine SameFrames.inv (s := s) ⟨rfl, rfl, rfl, rfl, rfl, rfl, rfl, rfl⟩ h (fun hs => ?_) h.armed
  obtain ⟨htarmed, htcnt, hswapped⟩ := h.notStarted hs
  exact ⟨htarmed, by simp [htarmed, htcnt], hswapped⟩

/-- SUBMIT keeps the invariants: it makes a well-formed frame the pending one. -/
theorem submitFrame_inv (fr fg fb : Byte) (h : Inv s) : Inv (submitFrame fr fg fb s) where
  cursorLow := h.cursorLow
  cursorHigh := h.cursorHigh
  exhausted := h.exhausted
  before hs := by
    obtain ⟨hact, hcur, hline, hlow⟩ := h.before (by simpa using hs)
    exact ⟨hact, hcur, hline, hlow⟩
  after hs := by
    obtain ⟨hframe, hline, hlevels⟩ := h.after (by simpa using hs)
    exact ⟨hframe, hline, hlevels⟩
  notSubmitted hs := by simp at hs
  pending _ := buildFrame_wellFormed _ fr fg fb
  notStarted := by simpa using h.notStarted
  armed := h.armed

end

/-! ### The invariants: the STEP -/

/-- The lines of a frame's first three entries, in a list. -/
theorem Frame.line_eq_getElem (f : Frame) {j : Nat} (hj : j < 3) :
    (f.get j).line = [f.e0.line, f.e1.line, f.e2.line][j] := by
  obtain rfl | rfl | rfl : j = 0 ∨ j = 1 ∨ j = 2 := by omega
  all_goals rfl

/-- No line has two entries in a well-formed frame (10_state.md R43). -/
theorem Frame.WellFormed.line_inj {f : Frame} (h : f.WellFormed) {i j : Nat} (hi : i < 3) (hj : j < 3)
    (hline : (f.get i).line = (f.get j).line) : i = j := by
  have nodup : [f.e0.line, f.e1.line, f.e2.line].Nodup := h.lines.nodup_iff.mpr (by decide)
  rw [f.line_eq_getElem hi, f.line_eq_getElem hj] at hline
  exact nodup.getElem_inj_iff.mp hline

/-- The turn-off of a running frame lowers the line of the entry dequeued last and no other, so each line is then high just
when its entry is still to come (10_state.md R44, 42_sequencer.md R108). -/
theorem turnOff_levels {s : State} (h : AfterSwap s) (hlow : 1 ≤ s.actCur.toNat) (hcur : s.actCur.toNat < 4) {j : Nat}
    {k : Line} (hj : j < 3) (hk : (s.act.get j).line = some k) :
    (turnOff s).lines.get k = true ↔ s.actCur.toNat ≤ j := by
  have last : s.curLine = some k ↔ s.actCur.toNat = j + 1 := by
    rw [h.curLine, ← hk]
    constructor
    · intro hline
      have := h.frame.line_inj (by omega) hj hline
      omega
    · intro hc
      rw [hc, Nat.add_sub_cancel]
  rw [turnOff_get]
  split
  · have := last.mp ‹_›
    simp only [Bool.false_eq_true, false_iff]
    omega
  · have := mt last.mpr ‹_›
    rw [h.levels j k hj hk]
    omega

/-- After a swap on an exhausted frame every line is high, and the turn-off that follows has no line to lower. -/
theorem turnOff_swapFrame_levels {s : State} (hline : s.curLine = none) (k : Line) :
    (turnOff (swapFrame s)).lines.get k = true := by
  rw [turnOff_get, swapFrame_curLine, swapFrame_lines, hline]
  cases k <;> rfl

/-- An entry's STEP meets the invariants, when after the turn-off each line is high just when its entry is still to come. -/
theorem stepEntry_inv {s : State} (hframe : s.act.WellFormed) (hcur : s.actCur.toNat < 4)
    (hlevels : ∀ j k, j < 3 → (s.act.get j).line = some k → ((turnOff s).lines.get k = true ↔ s.actCur.toNat ≤ j))
    (hswapped : s.swapped = true) (hsubmitted : s.submitted = false → s.pnd = Frame.reset ∧ s.pndV = false)
    (hpending : s.submitted = true → s.pnd.WellFormed) (hstarted : s.started = true) : Inv (stepEntry s) := by
  have cursor : (stepEntry s).actCur.toNat = s.actCur.toNat + 1 := by
    rw [stepEntry_actCur, BitVec.toNat_add_of_lt (by simpa using by omega)]
    rfl
  exact
    { cursorLow := by omega
      cursorHigh := by omega
      exhausted := fun h => by
        have last : s.actCur.toNat = 3 := by
          have := congrArg BitVec.toNat h
          rw [cursor] at this
          simpa using this
        rw [stepEntry_curLine, last]
        exact congrArg Entry.line hframe.sentinel
      before := fun h => by simp [hswapped] at h
      after := fun _ => by
        constructor
        · rw [stepEntry_act]; exact hframe
        · rw [stepEntry_curLine, stepEntry_act, cursor, Nat.add_sub_cancel]
        · intro j k hj hk
          rw [stepEntry_act] at hk
          rw [stepEntry_lines, hlevels j k hj hk, cursor]
          omega
      notSubmitted := by simpa using hsubmitted
      pending := by simpa using hpending
      notStarted := fun h => by simp [hstarted] at h
      armed := fun _ => stepEntry_tarmed s }

/-- STEP keeps the invariants on each of its three paths: the next entry of the running frame, the first entry of the pending
one, or an idle arm (42_sequencer.md R106). -/
theorem sequencerStep_inv {s : State} (h : Inv s) (hstarted : s.started = true) : Inv (sequencerStep s) := by
  obtain ⟨hcur, e⟩ | ⟨hcur, hpnd, e⟩ | ⟨-, -, e⟩ := sequencerStep_cases s <;> rw [e]
  · have hswapped := h.swapped_of_running hcur
    have hafter := h.after hswapped
    exact stepEntry_inv hafter.frame hcur (fun j k => turnOff_levels hafter h.cursorLow hcur) hswapped h.notSubmitted h.pending
      hstarted
  · have hline := h.curLine_of_exhausted hcur
    have hsubmitted := h.submitted_of_pending hpnd
    exact stepEntry_inv (by simpa using h.pending hsubmitted) (by simp)
      (fun j k _ _ => iff_of_true (turnOff_swapFrame_levels hline k) (by simp)) (by simp) (by simp [hsubmitted])
      (by simpa using h.pending) (by simpa using hstarted)
  · exact SameFrames.inv (s := s) (by constructor <;> simp) h (by simp [hstarted]) (by simp)

/-! ### The invariants: every transaction -/

/-- Every instruction keeps the invariants. -/
theorem exec_inv {i : Instr} {s t : State} (hs : Inv s) (h : exec i s = .next t) : Inv t := by
  obtain rfl | ⟨fr, fg, fb, -, -, rfl⟩ | ⟨-, -, -, rfl⟩ | ⟨-, -, -, rfl⟩ | ⟨w, -, -, rfl⟩ | ⟨-, -, w, rfl⟩ |
    ⟨-, henabled, rfl⟩ | ⟨-, -, rfl⟩ := exec_cases h
  · exact hs
  · exact submitFrame_inv fr fg fb hs
  · exact raiseFault_inv _ hs
  · rw [← sequencerStep_of_tarmed true]
    exact sequencerStep_inv (SameFrames.inv (s := s) ⟨rfl, rfl, rfl, rfl, rfl, rfl, rfl, rfl⟩ hs
      (fun hn => nomatch hn) fun _ => rfl) rfl
  · exact raiseFault_inv _ hs
  · exact answer_inv _ hs
  · rw [sequencerStep_of_tarmed]
    exact sequencerStep_inv hs (hs.started_of_armed ((expiryEnabled_iff s).mp henabled).1)
  · exact tickEffect_inv hs

/-- Settles O46: a transaction runs in the state with one turn taken off, which has the same block, and each kind of
transaction keeps the invariants. -/
theorem stepKeepsInv : Obligations.StepKeepsInv := by
  intro s t h hstep
  obtain ⟨u, schedule, hostLater, hu, moved⟩ := step_cases hstep
  have hinv : Inv u := hu ▸ SameFrames.inv (s := s) ⟨rfl, rfl, rfl, rfl, rfl, rfl, rfl, rfl⟩ h h.notStarted h.armed
  obtain ⟨i, hi⟩ | rfl | ⟨a, rfl⟩ := moved
  · exact exec_inv hinv hi
  · exact resetInput_inv u
  · exact badAccess_inv a hinv

/-! ### Reset, and the words of the spec's tables -/

/-- Settles O43, element by element of the table of 10_state.md R41. -/
theorem resetValues : Obligations.ResetValues := by
  refine ⟨fun j hj => ?_, rfl, rfl, rfl, fun k => ?_, rfl, rfl, rfl, rfl, rfl, rfl⟩
  · obtain rfl | rfl | rfl | rfl : j = 0 ∨ j = 1 ∨ j = 2 ∨ j = 3 := by omega
    all_goals exact ⟨rfl, rfl⟩
  · cases k <;> rfl

/-- Settles O45: at reset the timer is not armed, the trace is empty and every line is low. -/
theorem resetMeetsInvariants : Obligations.ResetMeetsInvariants := by
  refine ⟨inv_reset, fun _ htarmed => ?clock, fun k => ?pulses, traceOrdered_of_nil rfl, fun turns later hhost => ?safe⟩
  case clock => nomatch htarmed
  case pulses => cases k <;> exact ⟨rfl, rfl⟩
  case safe => exact ⟨rfl, hhost⟩

/-- Settles O4: every word is a closed one, so the decoder's verdict on each is computed. -/
theorem specWordsDecode : Obligations.SpecWordsDecode := by
  unfold Obligations.SpecWordsDecode
  decide

end Sys2Proof.Machine
end

section
/-! The memory family (20_memory.md): the byte lanes of a word, the window, what the decoder makes of an access, and the step
whose turn is a host access: a decoded one, one outside the window, a bad one, a register read. -/

namespace Sys2Proof.Machine

open Sys2Proof.Spec

/-! ### The byte lanes of a word -/

/-- The lanes of a word are the four base-256 digits of its number, lowest first (20_memory.md R53). -/
theorem lanesOfWord_eq_lanes4 (w : Word) : lanesOfWord w = lanes4 w.toNat := by
  simp [lanesOfWord, lanes4, BitVec.extractLsb', Nat.shiftRight_eq_div_pow]

/-- Settles O6, lane by lane. -/
theorem byteLanesLittleEndian : Obligations.ByteLanesLittleEndian := by
  intro w i hi
  rw [lanesOfWord_eq_lanes4]
  obtain rfl | rfl | rfl | rfl : i = 0 ∨ i = 1 ∨ i = 2 ∨ i = 3 := by omega
  · simp [lanes4]
  all_goals rfl

/-! ### The window and the decoder -/

/-- An access reaches the block just when its distance from BASE is 0 to 63 (20_memory.md R47). -/
theorem inWindow_iff (rel : Int) : inWindow rel = true ↔ 0 ≤ rel ∧ rel < 64 := by
  simp [inWindow]

/-- The 64 host addresses from BASE on are those in the window (20_memory.md R47). -/
theorem inWindow_relOf_iff (base a : Nat) : inWindow (relOf base a) = true ↔ base ≤ a ∧ a < base + 64 := by
  rw [inWindow_iff, relOf]
  omega

/-- The decoder rejects what is outside the window as that (20_memory.md R47). -/
theorem decode_of_outside {a : Access} (h : ¬inWindow a.rel = true) : decode a = .error .outsideWindow := by
  cases a <;> exact if_pos (Bool.not_eq_true _ ▸ h)

/-- A read inside the window is of the wrong size, or misaligned, or of 4 bytes and decoded by its offset. -/
theorem decode_read_inside {rel : Int} (h : inWindow rel = true) (n : Nat) :
    decode (.read rel n) = .error .badSize ∨ decode (.read rel n) = .error .misaligned ∨
      n = 4 ∧ decode (.read rel n) = decodeReadAt rel.toNat := by
  simp only [decode, h, Bool.true_eq_false, if_false]
  split_ifs with hsize hal
  · exact .inl rfl
  · exact .inr (.inl rfl)
  · exact .inr (.inr ⟨not_not.mp hsize, rfl⟩)

/-- A write inside the window is of the wrong size, or misaligned, or of a word and decoded by its offset. -/
theorem decode_write_inside {rel : Int} (h : inWindow rel = true) (data : List Byte) :
    decode (.write rel data) = .error .badSize ∨ decode (.write rel data) = .error .misaligned ∨
      ∃ w, wordOfLanes data = some w ∧ decode (.write rel data) = decodeWriteAt rel.toNat w := by
  simp only [decode, h, Bool.true_eq_false, if_false]
  cases wordOfLanes data with
  | none => exact .inl rfl
  | some w =>
    by_cases hal : rel.toNat % 4 = 0
    · exact .inr (.inr ⟨w, rfl, if_neg (not_not.mpr hal)⟩)
    · exact .inr (.inl (if_pos hal))

/-- At an offset of the window, the decoder of reads never answers that the access is outside. -/
theorem decodeReadAt_ne_outsideWindow (off : Nat) : decodeReadAt off ≠ .error .outsideWindow := by
  unfold decodeReadAt
  repeat' split
  all_goals nofun

/-- At an offset of the window, the decoder of writes never answers that the access is outside. -/
theorem decodeWriteAt_ne_outsideWindow (off : Nat) (w : Word) : decodeWriteAt off w ≠ .error .outsideWindow := by
  unfold decodeWriteAt
  repeat' split
  all_goals nofun

/-- The decoder rejects no access inside the window as one outside it. -/
theorem decode_ne_outsideWindow {a : Access} (h : inWindow a.rel = true) : decode a ≠ .error .outsideWindow := by
  cases a with
  | read rel n =>
    obtain e | e | ⟨-, e⟩ := decode_read_inside (rel := rel) h n <;> rw [e]
    · nofun
    · nofun
    · exact decodeReadAt_ne_outsideWindow _
  | write rel data =>
    obtain e | e | ⟨w, -, e⟩ := decode_write_inside (rel := rel) h data <;> rw [e]
    · nofun
    · nofun
    · exact decodeWriteAt_ne_outsideWindow _ w

/-- The decoder rejects an access as outside just when it does not reach the block (20_memory.md R47). -/
theorem decode_eq_outsideWindow_iff (a : Access) : decode a = .error .outsideWindow ↔ ¬inWindow a.rel = true :=
  ⟨fun h hwin => decode_ne_outsideWindow hwin h, decode_of_outside⟩

/-- Settles O9: an offset in the window is a host address less BASE, and every other address is what the decoder calls
outside. -/
theorem windowDecode : Obligations.WindowDecode := by
  intro base a
  have hwin := inWindow_relOf_iff base a
  refine ⟨hwin, fun h => ?offset, fun n data => ⟨?read, ?write⟩⟩
  case offset =>
    have hbase := hwin.mp h
    rw [relOf]
    omega
  case read => exact (decode_eq_outsideWindow_iff _).trans hwin.not
  case write => exact (decode_eq_outsideWindow_iff _).trans hwin.not

/-! ### The step of a host access -/

/-- A step whose turn is an access performs it in the state with that turn taken off. -/
theorem step_of_access {s u : State} {a : Access} (h : s.nextTurn = (.access a, u)) : step s = hostAccess a u := by
  rw [step, nextTransaction, h, takeTurn]

/-- An access that decodes is its instruction. -/
theorem hostAccess_of_ok {a : Access} {i : Instr} (h : decode a = .ok i) (s : State) : hostAccess a s = exec i s := by
  rw [hostAccess, h]

/-- An access outside the window does nothing (assumption 4). -/
theorem hostAccess_of_outside {a : Access} (h : ¬inWindow a.rel = true) (s : State) : hostAccess a s = .next s := by
  rw [hostAccess, decode_of_outside h]
  rfl

/-- An access that reaches the block and decodes to no instruction is a bad one (20_memory.md R49). -/
theorem hostAccess_of_bad {a : Access} (hwin : inWindow a.rel = true) (hbad : ∀ i, decode a ≠ .ok i) (s : State) :
    hostAccess a s = .next (badAccess a s) := by
  cases h : decode a with
  | ok i => exact absurd h (hbad i)
  | error r =>
    have hr : r ≠ .outsideWindow := fun hr => decode_ne_outsideWindow hwin (hr ▸ h)
    rw [hostAccess, h]
    exact if_neg hr

/-- Settles O7: the step is the access, and the access is the instruction it decodes to. -/
theorem stepRunsDecodedAccess : Obligations.StepRunsDecodedAccess := by
  intro s u a i hturn hdec
  rw [step_of_access hturn, hostAccess_of_ok hdec]

/-- Settles O10: the address is outside the window, so the access does nothing in the state with its turn taken off. -/
theorem outsideWindowLeavesBlock : Obligations.OutsideWindowLeavesBlock := by
  intro s u a hturn hout
  have hwin : ¬inWindow a.rel = true := by
    rw [inWindow_iff]
    omega
  rw [step_of_access hturn, hostAccess_of_outside hwin]

/-! ### Bad accesses -/

/-- An offset that a register is read at is one of the table of readable registers (10_state.md R34). -/
theorem registerValue_of_readOffset {i : Instr} {off : Nat} (h : readOffset i = some off) (s : State) :
    registerValue s off ≠ none := by
  cases i <;> cases h <;> nofun

/-- No access of bad shape decodes to an instruction (20_memory.md R48, R50 to R52). -/
theorem decode_ne_ok_of_badShape {s : State} {a : Access} (hwin : inWindow a.rel = true) (hbad : badShape s a) (i : Instr) :
    decode a ≠ .ok i := by
  cases a with
  | read rel n =>
    obtain e | e | ⟨hsize, e⟩ := decode_read_inside (rel := rel) hwin n <;> rw [e]
    · nofun
    · nofun
    · intro hdec
      obtain ⟨-, hread, -⟩ := decodeReadAt_ok hdec
      exact hbad.elim (· hsize) (registerValue_of_readOffset hread s)
  | write rel data =>
    obtain e | e | ⟨w, hw, e⟩ := decode_write_inside (rel := rel) hwin data <;> rw [e]
    · nofun
    · nofun
    · intro hdec
      have hsize : data.length = 4 := congrArg List.length (lanesOfWord_of_wordOfLanes hw).symm
      have hcmd : rel.toNat = 0 := (decodeWriteAt_ok hdec).1
      have hlow : 0 ≤ rel := ((inWindow_iff rel).mp hwin).1
      exact hbad.elim (· hsize) (· (by omega))

/-- With no fault, raising one writes FAULT and its event (60_exceptions.md R135). -/
theorem raiseFault_of_noFault {s : State} (h : s.fault = .noFault) (c : FaultCode) :
    s.raiseFault c = { s with fault := c, trace := s.trace ++ [.fault s.now c] } :=
  if_pos h

/-- Settles O11: no bad shape decodes, so the access is a bad one, and with no fault that raises BAD_ACCESS. -/
theorem badAccessFaults : Obligations.BadAccessFaults := by
  intro s u a hturn hlow hhigh hfault hbad
  have hwin : inWindow a.rel = true := (inWindow_iff _).mpr ⟨hlow, hhigh⟩
  rw [step_of_access hturn, hostAccess_of_bad hwin (decode_ne_ok_of_badShape hwin hbad)]
  cases a with
  | read rel n => rw [badAccess, raiseFault_of_noFault hfault, State.answer]
  | write rel data => rw [badAccess, raiseFault_of_noFault hfault]

/-! ### The words of the registers -/

/-- A concatenation as a number. -/
theorem toNat_append_eq_add {m n : Nat} (x : BitVec m) (y : BitVec n) :
    (x ++ y).toNat = x.toNat * 2 ^ n + y.toNat := by
  rw [BitVec.toNat_append, ← Nat.shiftLeft_add_eq_or_of_lt y.isLt, Nat.shiftLeft_eq]

/-- A flag is 0 or 1 as a bit of a register. -/
theorem toNat_ofBool_eq_bit (b : Bool) : (BitVec.ofBool b).toNat = bit b := by
  cases b <;> rfl

/-- The code of a line is its number (10_state.md R25). -/
theorem lineCode_toNat (l : Option Line) : (lineCode l).toNat = lineNumber l := by
  obtain _ | _ | _ | _ := l <;> rfl

/-- The code of a fault is its number (60_exceptions.md R134). -/
theorem FaultCode.code_toNat (c : FaultCode) : c.code.toNat = faultNumber c := by
  cases c <;> rfl

/-- The STATUS word is the sum of its fields (10_state.md R36). -/
theorem statusWord_toNat (s : State) : (statusWord s).toNat = statusValue s := by
  simp only [statusWord, toNat_append_eq_add, toNat_ofBool_eq_bit, lineCode_toNat, FaultCode.code_toNat, BitVec.toNat_ofNat,
    statusValue]
  omega

/-- The TIMER word is TCNT, zero-extended (10_state.md R37). -/
theorem timerWord_toNat (s : State) : (timerWord s).toNat = s.tcnt.toNat := by
  rw [timerWord, toNat_append_eq_add, BitVec.toNat_ofNat, Nat.zero_mod, Nat.zero_mul, Nat.zero_add]

/-- The word of an entry is the sum of its fields (10_state.md R38, R39). -/
theorem entryWord_toNat (e : Entry) : (entryWord e).toNat = entryValue e := by
  simp only [entryWord, toNat_append_eq_add, lineCode_toNat, BitVec.toNat_ofNat, entryValue]
  omega

/-! ### Register reads -/

/-- A register read replies with the little-endian lanes of the register's number, and writes nothing else. -/
theorem State.answerWord_eq (w : Word) (s : State) : s.answerWord w = { s with reply := some (lanes4 w.toNat) } := by
  rw [State.answerWord, State.answer, lanesOfWord_eq_lanes4]

/-- A read at the offset of a readable register decodes to the instruction that answers the register's word. -/
theorem decode_read_of_registerValue {s : State} {off v : Nat} (h : registerValue s off = some v) :
    ∃ i w, decode (.read off 4) = .ok i ∧ exec i s = .next (s.answerWord w) ∧ w.toNat = v := by
  unfold registerValue at h
  split at h
  · exact ⟨.rdStatus, _, rfl, rfl, (statusWord_toNat s).trans (Option.some.inj h)⟩
  · exact ⟨.rdTimer, _, rfl, rfl, (timerWord_toNat s).trans (Option.some.inj h)⟩
  · exact ⟨.rdAct0, _, rfl, rfl, (entryWord_toNat _).trans (Option.some.inj h)⟩
  · exact ⟨.rdAct1, _, rfl, rfl, (entryWord_toNat _).trans (Option.some.inj h)⟩
  · exact ⟨.rdAct2, _, rfl, rfl, (entryWord_toNat _).trans (Option.some.inj h)⟩
  · exact ⟨.rdAct3, _, rfl, rfl, (entryWord_toNat _).trans (Option.some.inj h)⟩
  · exact ⟨.rdPnd0, _, rfl, rfl, (entryWord_toNat _).trans (Option.some.inj h)⟩
  · exact ⟨.rdPnd1, _, rfl, rfl, (entryWord_toNat _).trans (Option.some.inj h)⟩
  · exact ⟨.rdPnd2, _, rfl, rfl, (entryWord_toNat _).trans (Option.some.inj h)⟩
  · exact ⟨.rdPnd3, _, rfl, rfl, (entryWord_toNat _).trans (Option.some.inj h)⟩
  · cases h

/-- Settles O12: the read decodes to the instruction of its register, which answers the register's word. -/
theorem registerReadAnswers : Obligations.RegisterReadAnswers := by
  intro s u off v hturn hvalue
  obtain ⟨i, w, hdec, hexec, rfl⟩ := decode_read_of_registerValue hvalue
  rw [step_of_access hturn, hostAccess_of_ok hdec, hexec, State.answerWord_eq]

end Sys2Proof.Machine
end

section
/-! The encoding family (30_encoding.md): the command words by their numbers, the two round trips between instructions and
accesses, and the harness directive WAIT, whose moves suffice because an instant holds at most seven expiries. -/

namespace Sys2Proof.Machine

open Sys2Proof.Spec

/-! ### Command words -/

/-- A field of a word, compared as a number: bit `start` and the bits above it, `len` in all. -/
theorem field_beq_iff (w : Word) (start : Nat) {len : Nat} (c : BitVec len) :
    (w.extractLsb' start len == c) = true ↔ w.toNat / 2 ^ start % 2 ^ len = c.toNat := by
  rw [beq_iff_eq, ← BitVec.toNat_inj, BitVec.extractLsb'_toNat, Nat.shiftRight_eq_div_pow]

/-- The NOP word is the number 0 (30_encoding.md R68). -/
theorem isNopWord_iff (w : Word) : isNopWord w = true ↔ w.toNat = 0 := by
  have := w.isLt
  simp only [isNopWord, Bool.and_eq_true, field_beq_iff, BitVec.toNat_ofNat]
  omega

/-- A SUBMIT word is one whose top byte is 0x10 (30_encoding.md R69). -/
theorem isSubmitWord_iff (w : Word) : isSubmitWord w = true ↔ w.toNat / 2 ^ 24 = 0x10 := by
  have := w.isLt
  simp only [isSubmitWord, Bool.and_eq_true, field_beq_iff, BitVec.toNat_ofNat]
  omega

/-- The START word is the number 0x20000000 (30_encoding.md R70). -/
theorem isStartWord_iff (w : Word) : isStartWord w = true ↔ w.toNat = 0x20000000 := by
  have := w.isLt
  simp only [isStartWord, Bool.and_eq_true, field_beq_iff, BitVec.toNat_ofNat]
  omega

/-- The verdict on a command word by its number (30_encoding.md R66). -/
theorem decodeCommand_eq (w : Word) :
    decodeCommand w =
      if w.toNat = 0x00000000 then .nop
      else if w.toNat / 2 ^ 24 = 0x10 then
        .submit (BitVec.ofNat 8 (w.toNat / 2 ^ 16)) (BitVec.ofNat 8 (w.toNat / 2 ^ 8)) (BitVec.ofNat 8 w.toNat)
      else if w.toNat = 0x20000000 then .start
      else .illegal w := by
  simp only [decodeCommand, isNopWord_iff, isSubmitWord_iff, isStartWord_iff, BitVec.extractLsb', Nat.shiftRight_eq_div_pow,
    Nat.pow_zero, Nat.div_one]

/-- The number of the SUBMIT word: the opcode byte, then the three operands (30_encoding.md R69). -/
theorem submitWord_toNat (dr dg db : Byte) :
    (0x10#8 ++ dr ++ dg ++ db : Word).toNat = ((0x10 * 2 ^ 8 + dr.toNat) * 2 ^ 8 + dg.toNat) * 2 ^ 8 + db.toNat := by
  simp only [toNat_append_eq_add, BitVec.toNat_ofNat, Nat.reduceMod, Nat.reducePow]

/-- The SUBMIT word of three operands gives them back. -/
theorem decodeCommand_submitWord (dr dg db : Byte) : decodeCommand (0x10#8 ++ dr ++ dg ++ db) = .submit dr dg db := by
  have hw := submitWord_toNat dr dg db
  rw [decodeCommand_eq, hw, if_neg (by omega), if_pos (by omega)]
  congr 1 <;> apply BitVec.eq_of_toNat_eq <;> rw [BitVec.toNat_ofNat] <;> omega

/-- The word of a well-formed command is that command's, and no other's (30_encoding.md R66). -/
theorem decodeCommand_of_encodeWord {i : Instr} {w : Word} (hwf : i.wf = true) (h : encodeWord i = some w) :
    decodeCommand w = i := by
  cases i <;> cases h
  case nop => rfl
  case submit dr dg db => exact decodeCommand_submitWord dr dg db
  case start => rfl
  case illegal => simp_all [Instr.wf, decodeCommand]

/-- The word of the verdict on a word is that word, so no bit of it is ignored (30_encoding.md R73). -/
theorem encodeWord_decodeCommand (w : Word) : encodeWord (decodeCommand w) = some w := by
  rw [decodeCommand_eq]
  split_ifs with hnop hsubmit hstart <;> refine congrArg some (BitVec.eq_of_toNat_eq ?_)
  · exact hnop.symm
  · simp only [submitWord_toNat, BitVec.toNat_ofNat]
    omega
  · exact hstart.symm
  · rfl

/-! ### The two round trips -/

/-- An instruction with a command word is encoded as the write of that word to CMD. -/
theorem encode_of_encodeWord {i : Instr} {w : Word} (h : encodeWord i = some w) :
    encode i = some (.write 0 (lanesOfWord w)) := by
  rw [encode, h]

/-- An instruction with no command word is encoded as the 4-byte read at its offset, if it has one. -/
theorem encode_of_encodeWord_none {i : Instr} (h : encodeWord i = none) :
    encode i = (readOffset i).map fun off : Nat => .read off 4 := by
  rw [encode, h]
  cases readOffset i <;> rfl

/-- Any word written to CMD decodes, to the verdict on it (30_encoding.md R66). -/
theorem decode_write_cmd (w : Word) : decode (.write 0 (lanesOfWord w)) = .ok (decodeCommand w) := by
  simp [decode, inWindow, decodeWriteAt]

/-- A 4-byte read at the offset of a register decodes to the read of that register (10_state.md R34). -/
theorem decode_read_of_readOffset {i : Instr} {off : Nat} (h : readOffset i = some off) : decode (.read off 4) = .ok i := by
  cases i <;> cases h <;> rfl

/-- An accepted access reaches the block (20_memory.md R47). -/
theorem inWindow_of_decode_ok {a : Access} {i : Instr} (h : decode a = .ok i) : inWindow a.rel = true := by
  by_contra hout
  rw [decode_of_outside hout] at h
  cases h

/-- Settles O1: a command goes through the word of CMD, a register read through the offset of its register. -/
theorem decodeInvertsEncode : Obligations.DecodeInvertsEncode := by
  intro i a hwf henc
  cases hw : encodeWord i with
  | some w =>
    obtain rfl := Option.some.inj ((encode_of_encodeWord hw).symm.trans henc)
    rw [decode_write_cmd, decodeCommand_of_encodeWord hwf hw]
  | none =>
    rw [encode_of_encodeWord_none hw] at henc
    obtain ⟨off, hoff, rfl⟩ := Option.map_eq_some_iff.mp henc
    exact decode_read_of_readOffset hoff

/-- Settles O2: an accepted read is 4 bytes at its register's offset, an accepted write is the four lanes of a word at CMD. -/
theorem encodeInvertsDecode : Obligations.EncodeInvertsDecode := by
  intro a i hdec
  have hwin : inWindow a.rel = true := inWindow_of_decode_ok hdec
  have hlow : 0 ≤ a.rel := ((inWindow_iff a.rel).mp hwin).1
  cases a with
  | read rel n =>
    obtain e | e | ⟨rfl, e⟩ := decode_read_inside (rel := rel) hwin n <;> rw [e] at hdec
    · cases hdec
    · cases hdec
    · obtain ⟨hword, hoff, hwf⟩ := decodeReadAt_ok hdec
      refine ⟨?_, hwf⟩
      rw [encode_of_encodeWord_none hword, hoff, Option.map_some, Int.toNat_of_nonneg (a := rel) hlow]
  | write rel data =>
    obtain e | e | ⟨w, hw, e⟩ := decode_write_inside (rel := rel) hwin data <;> rw [e] at hdec
    · cases hdec
    · cases hdec
    · obtain ⟨hoff, rfl⟩ := decodeWriteAt_ok hdec
      obtain rfl : rel = 0 := le_antisymm (Int.toNat_eq_zero.mp hoff) hlow
      exact ⟨by rw [encode_of_encodeWord (encodeWord_decodeCommand w), lanesOfWord_of_wordOfLanes hw], decodeCommand_wf w⟩

/-- Settles O3: the lanes of the word's number are the word's, and the verdict on it is by its number. -/
theorem commandWordVerdict : Obligations.CommandWordVerdict := by
  intro w
  rw [← lanesOfWord_eq_lanes4, decode_write_cmd, decodeCommand_eq]

/-- Settles O5: an access that decoded to an event would be the event's encoding, and it has none. -/
theorem eventsHaveNoEncoding : Obligations.EventsHaveNoEncoding := by
  refine ⟨rfl, rfl, fun a => ⟨fun h => ?_, fun h => ?_⟩⟩
  · cases (encodeInvertsDecode a _ h).1
  · cases (encodeInvertsDecode a _ h).1

/-! ### Expiries of one instant -/

/-- The move of a block whose expiry is enabled is the expiry's STEP (60_exceptions.md R145). -/
theorem blockMove_of_enabled {s : State} (h : s.expiryEnabled = true) : blockMove s = .next (sequencerStep s) := by
  rw [← sequencerStep_of_tarmed false s, ← execExpire_of_enabled h, blockMove, enabledEvent, if_pos h, exec]

/-- The move of a block whose expiry is not enabled is a tick (60_exceptions.md R145). -/
theorem blockMove_of_not_enabled {s : State} (h : s.expiryEnabled = false) : blockMove s = .next (tickEffect s) := by
  rw [← execTimeTick_of_enabled h, blockMove, enabledEvent, if_neg (by simp [h]), exec]

/-- STEP takes no time (70_reset_and_hazards.md R167). -/
@[simp] theorem sequencerStep_now (s : State) : (sequencerStep s).now = s.now := by
  obtain ⟨-, e⟩ | ⟨-, -, e⟩ | ⟨-, -, e⟩ := sequencerStep_cases s <;> simp [e]

/-- An idle arm counts at least one time unit (00_scope.md R9). -/
theorem stepIdle_expiryEnabled (s : State) : (stepIdle s).expiryEnabled = false := by
  have hcount : BitVec.ofNat 16 s.cfg.idleDelay ≠ 0#16 := by
    have := s.cfg.idleDelayLessOne.isLt
    simp only [ne_eq, ← BitVec.toNat_inj, BitVec.toNat_ofNat, Params.idleDelay]
    omega
  simp [State.expiryEnabled, State.expiryPending, hcount]

/-- An entry that is over in the instant of its dequeue has no more duty than the one before it, under either ARM_REFERENCE
(42_sequencer.md R113). -/
theorem duty_le_prevDuty_of_stepEntry_enabled {s : State} (h : (stepEntry s).expiryEnabled = true) :
    (s.act.get s.actCur.toNat).duty.toNat ≤ prevDuty s.act s.actCur.toNat := by
  obtain ⟨-, htcnt, -⟩ := (expiryEnabled_iff _).mp h
  have hd := (s.act.get s.actCur.toNat).duty.isLt
  rw [stepEntry_tcnt, ← BitVec.toNat_inj, BitVec.toNat_ofNat, BitVec.toNat_ofNat] at htcnt
  cases href : s.cfg.armReference <;> simp only [href, countdown, Config.stepDuration] at htcnt <;> omega

/-- The STEPs that an instant can still hold once the frame is exhausted: a swap and three further entries, or an idle arm. -/
def exhaustedSteps (s : State) : Nat := if s.pndV then 4 else 1

/-- The STEPs that an instant can still hold when an expiry is enabled. A running frame whose last dequeued entry has duty 0 is
not exhausted in this instant, since its sentinel has duty 100 (42_sequencer.md R121). -/
def instantSteps (s : State) : Nat :=
  if s.actCur.toNat < 4 then
    4 - s.actCur.toNat + if (s.act.get (s.actCur.toNat - 1)).duty.toNat = 0 then 0 else exhaustedSteps s
  else exhaustedSteps s

/-- A bound on the expiries still to come in the present instant. -/
def expiriesLeft (s : State) : Nat := if s.expiryEnabled then instantSteps s else 0

/-- An instant holds at most seven expiries (42_sequencer.md R121). -/
theorem expiriesLeft_le_seven {s : State} (h : Inv s) : expiriesLeft s ≤ 7 := by
  have hlow := h.cursorLow
  unfold expiriesLeft instantSteps exhaustedSteps
  split_ifs <;> omega

/-- A state has fewer expiries left than `n` when an enabled expiry leaves room for fewer STEPs than `n`. -/
theorem expiriesLeft_lt {s : State} {n : Nat} (hpos : 0 < n) (h : s.expiryEnabled = true → instantSteps s < n) :
    expiriesLeft s < n := by
  unfold expiriesLeft
  split
  · exact h ‹_›
  · exact hpos

/-- The next entry of a running frame leaves fewer STEPs to the instant: if it is over at once and the one before it has duty
0, then it has duty 0 as well and is not the sentinel. -/
theorem instantSteps_stepEntry_lt {s : State} (hs : Inv s) (hcur : s.actCur.toNat < 4)
    (h : (stepEntry s).expiryEnabled = true) : instantSteps (stepEntry s) < instantSteps s := by
  have hlow := hs.cursorLow
  have hframe := (hs.after (hs.swapped_of_running hcur)).frame
  have hcursor : (s.actCur + 1#3).toNat = s.actCur.toNat + 1 := BitVec.toNat_add_of_lt (by simpa using by omega)
  have hduty : (s.act.get s.actCur.toNat).duty.toNat ≤ (s.act.get (s.actCur.toNat - 1)).duty.toNat := by
    have := duty_le_prevDuty_of_stepEntry_enabled h
    rwa [prevDuty, if_neg (by omega)] at this
  have hsentinel : s.actCur.toNat = 3 → (s.act.get s.actCur.toNat).duty.toNat = 100 := fun hlast => by
    rw [hlast]
    exact congrArg (·.duty.toNat) hframe.sentinel
  simp only [instantSteps, exhaustedSteps, stepEntry_act, stepEntry_actCur, stepEntry_pndV, hcursor, Nat.add_sub_cancel]
  split_ifs <;> omega

/-- A swap's first entry leaves the instant at most the other three, for it is over at once only at duty 0. -/
theorem instantSteps_stepEntry_swapFrame {s : State} (h : (stepEntry (swapFrame s)).expiryEnabled = true) :
    instantSteps (stepEntry (swapFrame s)) = 3 := by
  have hduty : (s.pnd.get 0).duty.toNat = 0 := by simpa [prevDuty] using duty_le_prevDuty_of_stepEntry_enabled h
  simp [instantSteps, hduty]

/-- An expiry's STEP leaves fewer expiries to the instant, on each of its three paths (42_sequencer.md R121). -/
theorem expiriesLeft_sequencerStep_lt {s : State} (hs : Inv s) (h : s.expiryEnabled = true) :
    expiriesLeft (sequencerStep s) < expiriesLeft s := by
  rw [show expiriesLeft s = instantSteps s from if_pos h]
  obtain ⟨hcur, e⟩ | ⟨hcur, hpnd, e⟩ | ⟨hcur, hpnd, e⟩ := sequencerStep_cases s <;> rw [e]
  · exact expiriesLeft_lt (by rw [instantSteps, if_pos hcur]; omega) (instantSteps_stepEntry_lt hs hcur)
  · have hsteps : instantSteps s = 4 := by simp [instantSteps, exhaustedSteps, hcur, hpnd]
    rw [hsteps]
    exact expiriesLeft_lt (by decide) fun he => (instantSteps_stepEntry_swapFrame he).trans_lt (by decide)
  · have hsteps : instantSteps s = 1 := by simp [instantSteps, exhaustedSteps, hcur, hpnd]
    simp [hsteps, expiriesLeft, stepIdle_expiryEnabled]

/-! ### WAIT -/

/-- Waiting is over once NOW is at the target with no expiry enabled. -/
theorem waitUntil_of_settled (fuel : Nat) {target : Nat} {s : State} (h : target ≤ s.now ∧ s.expiryEnabled = false) :
    waitUntil fuel target s = .ok s := by
  cases fuel <;> exact if_pos h

/-- Waiting that is not over goes on from the block's next move. -/
theorem waitUntil_succ {fuel target : Nat} {s t : State} (hs : ¬(target ≤ s.now ∧ s.expiryEnabled = false))
    (h : blockMove s = .next t) : waitUntil (fuel + 1) target s = waitUntil fuel target t := by
  rw [waitUntil, if_neg hs, h]

/-- A bound on the moves of a wait: the expiries left to the present instant, then for each time unit to go a tick and at most
seven expiries (42_sequencer.md R121). -/
def movesLeft (target : Nat) (s : State) : Nat := expiriesLeft s + 8 * (target - s.now)

/-- While a wait is not over, the block's move keeps the invariants, does not pass the target and brings its end nearer. -/
theorem blockMove_movesLeft_lt {target : Nat} {s : State} (hs : Inv s) (hnow : s.now ≤ target)
    (hgo : ¬(target ≤ s.now ∧ s.expiryEnabled = false)) :
    ∃ t, blockMove s = .next t ∧ Inv t ∧ t.now ≤ target ∧ movesLeft target t < movesLeft target s := by
  cases he : s.expiryEnabled with
  | true =>
    have hmove := blockMove_of_enabled he
    have := expiriesLeft_sequencerStep_lt hs he
    refine ⟨_, hmove, exec_inv hs hmove, by simpa using hnow, ?_⟩
    simpa [movesLeft] using this
  | false =>
    have hmove := blockMove_of_not_enabled he
    have hinv := exec_inv hs hmove
    have hseven := expiriesLeft_le_seven hinv
    have hlt : s.now < target := lt_of_not_ge fun hge => hgo ⟨hge, he⟩
    refine ⟨_, hmove, hinv, hlt, ?_⟩
    simp only [movesLeft, tickEffect_now]
    omega

/-- A wait with enough moves ends at the target with no expiry enabled. -/
theorem waitUntil_settles {fuel target : Nat} {s : State} (hs : Inv s) (hnow : s.now ≤ target)
    (hfuel : movesLeft target s ≤ fuel) :
    ∃ t, waitUntil fuel target s = .ok t ∧ t.now = target ∧ t.expiryEnabled = false := by
  induction fuel generalizing s with
  | zero =>
    have hover : target ≤ s.now ∧ s.expiryEnabled = false := by
      by_contra hgo
      obtain ⟨t, -, -, -, hlt⟩ := blockMove_movesLeft_lt hs hnow hgo
      omega
    exact ⟨s, waitUntil_of_settled 0 hover, le_antisymm hnow hover.1, hover.2⟩
  | succ fuel ih =>
    by_cases hover : target ≤ s.now ∧ s.expiryEnabled = false
    · exact ⟨s, waitUntil_of_settled _ hover, le_antisymm hnow hover.1, hover.2⟩
    · obtain ⟨t, hmove, hinv, hle, hlt⟩ := blockMove_movesLeft_lt hs hnow hover
      rw [waitUntil_succ hover hmove]
      exact ih hinv hle (by omega)

/-- Settles O55: the moves that WAIT is given are eight for each of its `n` time units and eight more for the present instant,
which holds at most seven expiries. -/
theorem waitSettles : Obligations.WaitSettles := by
  intro s n hs
  have hseven := expiriesLeft_le_seven hs
  exact waitUntil_settles hs (Nat.le_add_right _ n) (by simp only [movesLeft]; omega)

end Sys2Proof.Machine
end

section
/-! The sorter family (40_sorter.md): over all tie choices SORT3 gives every non-decreasing permutation, distinct keys leave
it one result, and the reference network is the stable sort. -/

namespace Sys2Proof.Machine

/-! ### A stage -/

/-- A stage that does not swap ties leaves two keys in order alone. -/
theorem compareExchange_false_of_le {x y : Entry} (h : x.duty.toNat ≤ y.duty.toNat) :
    compareExchange false x y = (x, y) := by
  simp [compareExchange, BitVec.lt_def, h]

/-- A stage swaps two keys that are strictly out of order, whatever it does with ties. -/
theorem compareExchange_of_lt (b : Bool) {x y : Entry} (h : y.duty.toNat < x.duty.toNat) :
    compareExchange b x y = (y, x) := by
  simp [compareExchange, BitVec.lt_def, h]

/-- A stage that swaps ties swaps two keys of which the later is no greater. -/
theorem compareExchange_true_of_le {x y : Entry} (h : y.duty.toNat ≤ x.duty.toNat) :
    compareExchange true x y = (y, x) := by
  obtain hlt | heq := h.lt_or_eq
  · exact compareExchange_of_lt true hlt
  · simp [compareExchange, BitVec.toNat_inj.mp heq]

/-! ### The sorter as a relation -/

/-- The six orders of three entries. -/
theorem perm_three_cases {α : Type*} {o0 o1 o2 v0 v1 v2 : α} (h : [o0, o1, o2].Perm [v0, v1, v2]) :
    (o0 = v0 ∧ o1 = v1 ∧ o2 = v2) ∨ (o0 = v1 ∧ o1 = v0 ∧ o2 = v2) ∨ (o0 = v1 ∧ o1 = v2 ∧ o2 = v0) ∨
      (o0 = v0 ∧ o1 = v2 ∧ o2 = v1) ∨ (o0 = v2 ∧ o1 = v0 ∧ o2 = v1) ∨ (o0 = v2 ∧ o1 = v1 ∧ o2 = v0) := by
  simpa [List.permutations', or_assoc] using List.mem_permutations'.mpr h

/-- Every non-decreasing permutation is the result of some tie choice (40_sorter.md R83): the stages that must swap to reach it
are those that swap ties. -/
theorem exists_sort3_eq {v0 v1 v2 o0 o1 o2 : Entry} (hperm : [o0, o1, o2].Perm [v0, v1, v2])
    (h01 : o0.duty.toNat ≤ o1.duty.toNat) (h12 : o1.duty.toNat ≤ o2.duty.toNat) :
    ∃ d : TieDraw, sort3 d v0 v1 v2 = (o0, o1, o2) := by
  have h02 := h01.trans h12
  obtain ⟨rfl, rfl, rfl⟩ | ⟨rfl, rfl, rfl⟩ | ⟨rfl, rfl, rfl⟩ | ⟨rfl, rfl, rfl⟩ | ⟨rfl, rfl, rfl⟩ | ⟨rfl, rfl, rfl⟩ :=
    perm_three_cases hperm
  · exact ⟨⟨false, false, false⟩, by simp [sort3, compareExchange_false_of_le, *]⟩
  · exact ⟨⟨true, false, false⟩, by simp [sort3, compareExchange_true_of_le, compareExchange_false_of_le, *]⟩
  · exact ⟨⟨true, true, false⟩, by simp [sort3, compareExchange_true_of_le, compareExchange_false_of_le, *]⟩
  · exact ⟨⟨false, true, false⟩, by simp [sort3, compareExchange_true_of_le, compareExchange_false_of_le, *]⟩
  · exact ⟨⟨false, true, true⟩, by simp [sort3, compareExchange_true_of_le, compareExchange_false_of_le, *]⟩
  · exact ⟨⟨true, true, true⟩, by simp [sort3, compareExchange_true_of_le, *]⟩

/-- Settles O19: every result is a non-decreasing permutation, and every non-decreasing permutation has its tie choice. -/
theorem sorterIsTheRelation : Obligations.SorterIsTheRelation := by
  intro v0 v1 v2 o0 o1 o2
  constructor
  · rintro ⟨d, hd⟩
    have hperm := sort3_perm d v0 v1 v2
    have hsorted := sort3_sorted d v0 v1 v2
    rw [hd] at hperm hsorted
    exact ⟨hperm, hsorted⟩
  · rintro ⟨hperm, h01, h12⟩
    exact exists_sort3_eq hperm h01 h12

/-! ### Distinct keys -/

/-- The sorter's result as a list, in the order of its keys (40_sorter.md R82). -/
theorem sort3_pairwise (d : TieDraw) (x y z : Entry) :
    [(sort3 d x y z).1, (sort3 d x y z).2.1, (sort3 d x y z).2.2].Pairwise (·.duty.toNat ≤ ·.duty.toNat) := by
  obtain ⟨h01, h12⟩ := sort3_sorted d x y z
  simp [h01, h12, h01.trans h12]

/-- Settles O20: two results of the sorter are non-decreasing permutations of the same entries, and entries with distinct keys
have only one. -/
theorem distinctKeysSortOneWay : Obligations.DistinctKeysSortOneWay := by
  intro d v0 v1 v2 h01 h02 h12
  have distinct : ([v0, v1, v2].map Entry.duty).Nodup := by simp [h01, h02, h12]
  have hperm := sort3_perm d v0 v1 v2
  have hpermRef := sort3_perm ⟨false, false, false⟩ v0 v1 v2
  have heq := (hperm.trans hpermRef.symm).eq_of_pairwise
    (fun a b ha hb hab hba => List.inj_on_of_nodup_map distinct (hperm.mem_iff.mp ha) (hpermRef.mem_iff.mp hb)
      (BitVec.eq_of_toNat_eq (hab.antisymm hba)))
    (sort3_pairwise d v0 v1 v2) (sort3_pairwise ⟨false, false, false⟩ v0 v1 v2)
  simp only [List.cons.injEq, and_true] at heq
  obtain ⟨h0, h1, h2⟩ := heq
  exact Prod.ext h0 (Prod.ext h1 h2)

/-! ### The reference network -/

/-- Settles O21: on each of the six ways the reference network's comparisons can come out, it gives the order of the insertion
sort. -/
theorem referenceNetworkIsStable : Obligations.ReferenceNetworkIsStable := by
  intro v0 v1 v2
  simp only [sort3Ref, sort3, List.insertionSort_cons, List.insertionSort_nil, List.orderedInsert_nil,
    List.orderedInsert_cons]
  obtain h01 | h01 := Nat.lt_or_ge v1.duty.toNat v0.duty.toNat
  · obtain h02 | h02 := Nat.lt_or_ge v2.duty.toNat v0.duty.toNat
    · obtain h12 | h12 := Nat.lt_or_ge v2.duty.toNat v1.duty.toNat
      · simp [compareExchange_of_lt, h01, h02, h12, h01.not_ge, h02.not_ge, h12.not_ge]
      · simp [compareExchange_of_lt, compareExchange_false_of_le, h01, h02, h12, h01.not_ge, h02.not_ge]
    · have h12 := h01.le.trans h02
      simp [compareExchange_of_lt, compareExchange_false_of_le, h01, h01.le, h02, h12, h01.not_ge]
  · obtain h12 | h12 := Nat.lt_or_ge v2.duty.toNat v1.duty.toNat
    · obtain h02 | h02 := Nat.lt_or_ge v2.duty.toNat v0.duty.toNat
      · simp [compareExchange_of_lt, compareExchange_false_of_le, h01, h02, h12, h02.not_ge, h12.not_ge]
      · simp [compareExchange_of_lt, compareExchange_false_of_le, h01, h02, h12, h12.not_ge]
    · simp [compareExchange_false_of_le, h01, h12]

end Sys2Proof.Machine
end

section
/-! The command family (41_commands.md): what each command and each register read makes of every state, and the rounding of
TO_DUTY. -/

namespace Sys2Proof.Machine

open Sys2Proof.Spec

/-! ### Register reads -/

/-- The read of a frame entry replies with the sum of the entry's fields (41_commands.md R101, R102). -/
theorem answerWord_entryWord (e : Entry) (s : State) :
    s.answerWord (entryWord e) = { s with reply := some (lanes4 (entryValue e)) } := by
  rw [State.answerWord_eq, entryWord_toNat]

/-- Settles O13: the word answered is STATUS, whose number is the sum of its fields. -/
theorem rdStatusValue : Obligations.RdStatusValue := by
  intro s
  rw [exec, execRdStatus, State.answerWord_eq, statusWord_toNat]

/-- Settles O14: the word answered is TIMER, whose number is TCNT. -/
theorem rdTimerValue : Obligations.RdTimerValue := by
  intro s
  rw [exec, execRdTimer, State.answerWord_eq, timerWord_toNat]

/-- Settles O15: each read answers the word of its entry of ACT. -/
theorem rdActValues : Obligations.RdActValues := by
  intro s
  simp only [← answerWord_entryWord]
  exact ⟨rfl, rfl, rfl, rfl⟩

/-- Settles O16: each read answers the word of its entry of PND. -/
theorem rdPndValues : Obligations.RdPndValues := by
  intro s
  simp only [← answerWord_entryWord]
  exact ⟨rfl, rfl, rfl, rfl⟩

/-! ### Commands with no fault -/

/-- With no fault a command is its effect (60_exceptions.md R144). -/
theorem command_of_noFault {s : State} (h : s.fault = .noFault) (f : State → State) : s.command f = f s :=
  if_pos h

/-- SUBMIT with no fault builds the pending frame. -/
theorem exec_submit_of_noFault (fr fg fb : Byte) {s : State} (h : s.fault = .noFault) :
    exec (.submit fr fg fb) s = .next (submitFrame fr fg fb s) := by
  rw [exec, execSubmit, command_of_noFault h]

/-- The first START with no fault sets STARTED and performs STEP (41_commands.md R96). -/
theorem exec_start_of_not_started {s : State} (h : s.fault = .noFault) (hs : s.started = false) :
    exec .start s = .next (sequencerStep { s with started := true }) := by
  rw [exec, execStart, command_of_noFault h, startBlock, hs, if_neg Bool.false_ne_true]

/-- Settles O17: with no fault the effect is none, and in a fault no command has one. -/
theorem nopChangesNothing : Obligations.NopChangesNothing := by
  intro s
  rw [exec, execNop]
  obtain ⟨-, e⟩ | ⟨-, e⟩ := command_cases (fun t => t) s <;> rw [e]

/-- Settles O26: with STARTED set, the effect is the fault. -/
theorem secondStartFaults : Obligations.SecondStartFaults := by
  intro s hfault hstarted
  rw [exec, execStart, command_of_noFault hfault, startBlock, if_pos hstarted, raiseFault_of_noFault hfault]

/-- Settles O27: the effect is the fault. -/
theorem illegalWordFaults : Obligations.IllegalWordFaults := by
  intro w s hfault
  rw [exec, execIllegal, command_of_noFault hfault, raiseFault_of_noFault hfault]

/-! ### SUBMIT -/

/-- BUILD_FRAME orders the three channels with their saturated duties (41_commands.md R91). -/
theorem buildFrame_perm (d : TieDraw) (fr fg fb : Byte) :
    [(buildFrame d fr fg fb).e0, (buildFrame d fr fg fb).e1, (buildFrame d fr fg fb).e2].Perm
      [⟨some .l0, sat100 fr⟩, ⟨some .l1, sat100 fg⟩, ⟨some .l2, sat100 fb⟩] :=
  sort3_perm d _ _ _

/-- Settles O18: the frame queued is the one BUILD_FRAME gives for the draw of this SUBMIT, whichever that is. -/
theorem submitQueuesSortedFrame : Obligations.SubmitQueuesSortedFrame := by
  intro fr fg fb s hfault
  have hwf := buildFrame_wellFormed (Config.tieDraw s.draws) fr fg fb
  refine ⟨buildFrame (Config.tieDraw s.draws) fr fg fb, ?next, hwf.sentinel, ?channels, hwf.sorted01, hwf.sorted12⟩
  case next =>
    rw [exec_submit_of_noFault fr fg fb hfault, submitFrame, State.emit]
    simp only [sat100_toNat]
  case channels =>
    simpa using (buildFrame_perm (Config.tieDraw s.draws) fr fg fb).map fun e => (e.line, e.duty.toNat)

/-- Settles O22: the new frame is built from the operands and the draw alone. -/
theorem submitReplacesQueuedFrame : Obligations.SubmitReplacesQueuedFrame := by
  intro fr fg fb s p v hfault
  rw [exec_submit_of_noFault fr fg fb hfault, exec_submit_of_noFault fr fg fb (s := { s with pnd := p, pndV := v }) hfault]
  rfl

/-! ### The paths of STEP on an exhausted frame -/

/-- On an exhausted frame with nothing pending, STEP is IDLE (42_sequencer.md R106). -/
theorem sequencerStep_of_idle {s : State} (hcur : 4 ≤ s.actCur.toNat) (hpnd : s.pndV = false) :
    sequencerStep s = stepIdle s := by
  obtain ⟨hlt, -⟩ | ⟨-, htrue, -⟩ | ⟨-, -, e⟩ := sequencerStep_cases s
  · exact absurd hlt hcur.not_gt
  · simp [hpnd] at htrue
  · exact e

/-- On an exhausted frame with a frame pending, STEP swaps and dequeues entry 0 (42_sequencer.md R106). -/
theorem sequencerStep_of_pending {s : State} (hcur : 4 ≤ s.actCur.toNat) (hpnd : s.pndV = true) :
    sequencerStep s = stepEntry (swapFrame s) := by
  obtain ⟨hlt, -⟩ | ⟨-, -, e⟩ | ⟨-, hfalse, -⟩ := sequencerStep_cases s
  · exact absurd hlt hcur.not_gt
  · exact e
  · simp [hpnd] at hfalse

/-- With no current line there is nothing to turn off (42_sequencer.md R108). -/
theorem turnOff_of_curLine_none {s : State} (h : s.curLine = none) : turnOff s = s := by
  rw [turnOff, h]

/-- Entry 0 counts to its deadline under either ARM_REFERENCE (42_sequencer.md R113). -/
theorem countdown_first (ref : ArmReference) (e : Entry) : countdown ref e.duty.toNat 0 = deadline e := by
  cases ref <;> rfl

/-- What a swap and the dequeue of entry 0 write, with no current line to turn off (42_sequencer.md R107, R110). -/
theorem stepEntry_swapFrame {s : State} (hline : s.curLine = none) :
    stepEntry (swapFrame s) =
      { s with
        pndV := false
        lines := ⟨true, true, true⟩
        act := s.pnd
        actCur := 1#3
        curLine := s.pnd.e0.line
        tcnt := BitVec.ofNat 16 (deadline s.pnd.e0)
        tarmed := true
        trace := s.trace ++
          [.line s.now .l0 true, .line s.now .l1 true, .line s.now .l2 true, .swap s.now,
           .arm s.now (deadline s.pnd.e0) (.entry 0 s.pnd.e0.line s.pnd.e0.duty.toNat (deadline s.pnd.e0))] } := by
  have hcount : countdown s.cfg.armReference (s.pnd.get 0).duty.toNat (prevDuty s.pnd 0) = deadline s.pnd.e0 :=
    countdown_first _ _
  have hoff : turnOff (swapFrame s) = swapFrame s := turnOff_of_curLine_none hline
  simp only [stepEntry, hoff, swapFrame_act, swapFrame_actCur, swapFrame_cfg, BitVec.toNat_ofNat, Nat.zero_mod, hcount]
  simp [swapFrame, State.armTimer, State.emit, State.setLine, Levels.set, Frame.get, deadline, Config.stepDuration]

/-! ### START -/

/-- Settles O23: STEP takes its idle path. -/
theorem startIdles : Obligations.StartIdles := by
  intro s hfault hstarted hcur hpnd
  rw [exec_start_of_not_started hfault hstarted, sequencerStep_of_idle (s := { s with started := true }) hcur hpnd,
    stepIdle, State.armTimer]

/-- Settles O24: STEP takes its swap path. -/
theorem startSwapsPendingFrame : Obligations.StartSwapsPendingFrame := by
  intro s hfault hstarted hcur hpnd hline
  rw [exec_start_of_not_started hfault hstarted, sequencerStep_of_pending (s := { s with started := true }) hcur hpnd,
    stepEntry_swapFrame (s := { s with started := true }) hline]

/-- STEP arms the timer on each of its paths, so what it counted before makes no difference (42_sequencer.md R115). -/
theorem sequencerStep_of_tcnt (c : BitVec 16) (s : State) : sequencerStep { s with tcnt := c } = sequencerStep s := by
  have off : ∀ u : State, turnOff { u with tcnt := c } = { turnOff u with tcnt := c } := fun u => by
    cases h : u.curLine <;> simp [turnOff, State.setLine, h]
  have entry : ∀ u : State, stepEntry { u with tcnt := c } = stepEntry u := fun u => by
    rw [stepEntry, off]
    rfl
  have swap : swapFrame { s with tcnt := c } = { swapFrame s with tcnt := c } := rfl
  have idle : stepIdle { s with tcnt := c } = stepIdle s := rfl
  simp only [sequencerStep, entry, swap, idle]

/-- Settles O25: both are a STEP with STARTED set, and STEP does not look at the timer that EXPIRE needs. -/
theorem startPerformsTheStep : Obligations.StartPerformsTheStep := by
  intro s hfault hstarted
  have henabled : State.expiryEnabled { s with started := true, tarmed := true, tcnt := 0#16 } = true :=
    (expiryEnabled_iff _).mpr ⟨rfl, rfl, hfault⟩
  rw [exec_start_of_not_started hfault hstarted, exec, execExpire_of_enabled henabled]
  have htarmed := sequencerStep_of_tarmed false { s with started := true, tcnt := 0#16 }
  have htcnt := sequencerStep_of_tcnt 0#16 { s with started := true }
  exact congrArg _ (htarmed.trans htcnt).symm

/-! ### TO_DUTY -/

/-- TO_DUTY of a ratio is its rounded percentage, capped (41_commands.md R90). -/
theorem toDuty_ratio (num : Int) {den : Nat} (h : 0 < den) :
    toDuty (.ratio num den) = some (max 0 (min 100 (roundHalfAway (100 * num) den))).toNat :=
  if_neg h.ne'

/-- A negative value does not round to a positive integer. -/
theorem roundHalfAway_nonpos {num : Int} (h : num < 0) (den : Nat) : roundHalfAway num den ≤ 0 := by
  rw [roundHalfAway, if_pos h]
  exact neg_nonpos.mpr (Int.natCast_nonneg _)

/-- A value that is not negative rounds to the integer part of its sum with a half. -/
theorem roundHalfAway_natCast (n den : Nat) : roundHalfAway n den = ((2 * n + den) / (2 * den) : Nat) := by
  rw [roundHalfAway, if_neg (by omega), Int.natAbs_natCast]

/-- TO_DUTY of a ratio that is not negative, in natural numbers (41_commands.md R90). -/
theorem toDuty_natCast (n : Nat) {den : Nat} (h : 0 < den) :
    toDuty (.ratio n den) = some (min 100 ((200 * n + den) / (2 * den))) := by
  have hround : roundHalfAway (100 * (n : Int)) den = ((200 * n + den) / (2 * den) : Nat) := by
    have := roundHalfAway_natCast (100 * n) den
    rwa [Nat.cast_mul, ← mul_assoc] at this
  rw [toDuty_ratio n h, hround]
  generalize (200 * n + den) / (2 * den) = rounded
  congr 1
  omega

/-- Settles O57: a negative value rounds to no more than 0, one above 1 to at least 100, and in between the integer part of
`100 * num / den + 1 / 2` needs no cap. -/
theorem toDutyRounds : Obligations.ToDutyRounds := by
  refine ⟨fun num den hden => ⟨fun hneg => ?negative, fun habove => ?above, fun hlow hhigh => ?between⟩, rfl, rfl⟩
  case negative =>
    have hround := roundHalfAway_nonpos (num := 100 * num) (by omega) den
    rw [toDuty_ratio num hden]
    congr 1
    omega
  case above =>
    obtain ⟨n, rfl⟩ := Int.eq_ofNat_of_zero_le (by omega : 0 ≤ num)
    have hcap : 100 ≤ (200 * n + den) / (2 * den) := (Nat.le_div_iff_mul_le (by omega)).mpr (by omega)
    rw [toDuty_natCast n hden, min_eq_left hcap]
  case between =>
    obtain ⟨n, rfl⟩ := Int.eq_ofNat_of_zero_le hlow
    have hcap : (200 * n + den) / (2 * den) ≤ 100 :=
      Nat.lt_succ_iff.mp ((Nat.div_lt_iff_lt_mul (by omega)).mpr (by omega))
    refine ⟨_, by rw [toDuty_natCast n hden, min_eq_right hcap], ?_, ?_⟩
    · exact_mod_cast Nat.mul_div_le (200 * n + den) (2 * den)
    · exact_mod_cast Nat.lt_mul_div_succ (200 * n + den) (by omega : 0 < 2 * den)

end Sys2Proof.Machine
end

section
/-! The sequencer family (42_sequencer.md): what an expiry and a tick write, the countdowns of a frame, the frame clock and the
pulses that every step keeps, and the bound on the STEPs of one instant. -/

namespace Sys2Proof.Machine

open Sys2Proof.Spec

/-! ### The two internal events -/

/-- EXPIRE under the condition of 42_sequencer.md R120 is STEP, which arms the timer again. -/
theorem exec_expire_of_due {s : State} (htarmed : s.tarmed = true) (htcnt : s.tcnt = 0#16) (hfault : s.fault = .noFault) :
    exec .expire s = .next (sequencerStep s) := by
  rw [exec, execExpire_of_enabled ((expiryEnabled_iff s).mpr ⟨htarmed, htcnt, hfault⟩), sequencerStep_of_tarmed]

/-- The count of a timer that is not at 0 goes down by one. -/
theorem sub_one_eq_ofNat {c : BitVec 16} (h : c ≠ 0#16) : c - 1#16 = BitVec.ofNat 16 (c.toNat - 1) := by
  bv_omega

/-- Settles O31: with the expiry not enabled the tick happens, and a count that is not 0 goes down by one. -/
theorem timeTickEffect : Obligations.TimeTickEffect := by
  intro s h
  have henabled : s.expiryEnabled = false := Bool.eq_false_iff.mpr (mt (expiryEnabled_iff s).mp h)
  have hpos : 0 < s.tcnt.toNat ↔ s.tcnt ≠ 0#16 := by bv_omega
  rw [exec, execTimeTick_of_enabled henabled, tickEffect]
  by_cases hzero : s.tcnt = 0#16
  · simp [hzero]
  · simp only [hpos, sub_one_eq_ofNat hzero]

/-- Settles O32: each event is refused on one side of the condition of R120 and answers on the other. -/
theorem eventsExclusive : Obligations.EventsExclusive := by
  intro s
  rw [← expiryEnabled_iff, exec, execExpire, exec, execTimeTick]
  cases s.expiryEnabled <;> simp

/-- Settles O30: STEP takes its idle path, whose delay is a parameter of 1 to 65535. -/
theorem expireIdles : Obligations.ExpireIdles := by
  intro s htarmed htcnt hfault hcur hpnd
  have hdelay := s.cfg.idleDelayLessOne.isLt
  refine ⟨?next, Nat.succ_pos _, hdelay⟩
  rw [exec_expire_of_due htarmed htcnt hfault, sequencerStep_of_idle hcur hpnd, stepIdle, State.armTimer, ← htarmed]

/-- Settles O29: STEP takes its swap path. -/
theorem expireSwapsFrame : Obligations.ExpireSwapsFrame := by
  intro s htarmed htcnt hfault hcur hpnd hline
  rw [exec_expire_of_due htarmed htcnt hfault, sequencerStep_of_pending hcur hpnd, stepEntry_swapFrame hline]

/-! ### The entry path of STEP -/

/-- In a running frame STEP dequeues the next entry (42_sequencer.md R106). -/
theorem sequencerStep_of_running {s : State} (hcur : s.actCur.toNat < 4) : sequencerStep s = stepEntry s := by
  obtain ⟨-, e⟩ | ⟨hge, -⟩ | ⟨hge, -⟩ := sequencerStep_cases s
  · exact e
  · exact absurd hcur hge.not_gt
  · exact absurd hcur hge.not_gt

/-- EXPIRE in a running frame is the dequeue of the next entry. -/
theorem exec_expire_of_running {s : State} (htarmed : s.tarmed = true) (htcnt : s.tcnt = 0#16) (hfault : s.fault = .noFault)
    (hcur : s.actCur.toNat < 4) : exec .expire s = .next (stepEntry s) := by
  rw [exec_expire_of_due htarmed htcnt hfault, sequencerStep_of_running hcur]

/-- The turn-off writes the lines and its event (42_sequencer.md R108). -/
theorem turnOff_eq (s : State) :
    turnOff s = { s with lines := (turnOff s).lines, trace := s.trace ++ turnOffEvents s } := by
  obtain h | ⟨k, h⟩ := Option.eq_none_or_eq_some s.curLine
  · have hevents : turnOffEvents s = [] := by rw [turnOffEvents, h]
    rw [turnOff_of_curLine_none h, hevents, List.append_nil]
  · have hevents : turnOffEvents s = [.line s.now k false] := by rw [turnOffEvents, h]
    have hoff : turnOff s = s.setLine k false := by rw [turnOff, h]
    rw [hoff, hevents]
    rfl

/-- Settles O28: the lines are those after the turn-off, and the countdown is that of the entry dequeued. -/
theorem expireDequeuesEntry : Obligations.ExpireDequeuesEntry := by
  rintro s _ _ _ _ _ htarmed htcnt hfault rfl hcur rfl rfl rfl - rfl
  refine ⟨(turnOff s).lines, ?next, turnOff_get s⟩
  have hcursor : s.actCur + 1#3 = BitVec.ofNat 3 (s.actCur.toNat + 1) := by bv_omega
  rw [exec_expire_of_running htarmed htcnt hfault hcur, stepEntry, turnOff_eq]
  simp only [State.armTimer, hcursor]
  rfl

/-- The entry path reads neither PND nor PND_V (42_sequencer.md R129). -/
theorem stepEntry_of_pending (s : State) (p : Frame) (v : Bool) :
    stepEntry { s with pnd := p, pndV := v } = { stepEntry s with pnd := p, pndV := v } := by
  cases h : s.curLine <;> simp [stepEntry, turnOff, State.armTimer, State.setLine, h]

/-- Settles O35: STEP takes the entry path in both states. -/
theorem runningFrameIgnoresPending : Obligations.RunningFrameIgnoresPending := by
  intro s p v htarmed htcnt hfault hcur
  refine ⟨stepEntry s, exec_expire_of_running htarmed htcnt hfault hcur, ?_⟩
  rw [exec_expire_of_running (s := { s with pnd := p, pndV := v }) htarmed htcnt hfault hcur, stepEntry_of_pending]

/-! ### The arm of every STEP -/

/-- An entry's STEP adds one ArmEv. -/
theorem stepEntry_countP_isArm (s : State) :
    (stepEntry s).trace.countP Event.isArm = s.trace.countP Event.isArm + 1 := by
  cases h : s.curLine <;> simp [h, Event.isArm]

/-- STEP adds one ArmEv on each of its three paths (42_sequencer.md R115). -/
theorem sequencerStep_countP_isArm (s : State) :
    (sequencerStep s).trace.countP Event.isArm = s.trace.countP Event.isArm + 1 := by
  obtain ⟨-, e⟩ | ⟨-, -, e⟩ | ⟨-, -, e⟩ := sequencerStep_cases s <;> rw [e]
  · exact stepEntry_countP_isArm s
  · rw [stepEntry_countP_isArm]
    simp [Event.isArm]
  · simp [Event.isArm]

/-- Settles O33: both triggers perform STEP. -/
theorem oneArmPerStep : Obligations.OneArmPerStep := by
  constructor
  · intro s htarmed htcnt hfault
    exact ⟨_, exec_expire_of_due htarmed htcnt hfault, sequencerStep_countP_isArm s⟩
  · intro s hfault hstarted
    exact ⟨_, exec_start_of_not_started hfault hstarted, sequencerStep_countP_isArm { s with started := true }⟩

/-! ### The countdowns of a frame -/

section
variable {f : Frame}

/-- The sentinel's duty is the frame's length (10_state.md R43). -/
theorem Frame.WellFormed.duty_last (h : f.WellFormed) : (f.get 3).duty.toNat = 100 :=
  congrArg (·.duty.toNat) h.sentinel

/-- No entry has more duty than the next one (10_state.md R43). -/
theorem Frame.WellFormed.duty_le_succ (h : f.WellFormed) {j : Nat} (hj : j < 3) :
    (f.get j).duty.toNat ≤ (f.get (j + 1)).duty.toNat := by
  obtain rfl | rfl | rfl : j = 0 ∨ j = 1 ∨ j = 2 := by omega
  · exact h.sorted01
  · exact h.sorted12
  · exact h.duty_last ▸ h.capped

/-- The duties of a well-formed frame do not decrease, up to the sentinel's. -/
theorem Frame.WellFormed.duty_mono (h : f.WellFormed) {i j : Nat} (hij : i ≤ j) (hj : j < 4) :
    (f.get i).duty.toNat ≤ (f.get j).duty.toNat := by
  induction j, hij using Nat.le_induction with
  | base => exact le_rfl
  | succ j _ ih => exact (ih (by omega)).trans (h.duty_le_succ (by omega))

/-- No duty is above the sentinel's. -/
theorem Frame.WellFormed.duty_le (h : f.WellFormed) {j : Nat} (hj : j < 4) : (f.get j).duty.toNat ≤ 100 :=
  h.duty_last ▸ h.duty_mono (Nat.le_of_lt_succ hj) (by decide)

/-- Entry 0 has no entry before it. -/
@[simp] theorem prevDuty_zero (f : Frame) : prevDuty f 0 = 0 := rfl

/-- Every other entry has one (42_sequencer.md R107). -/
@[simp] theorem prevDuty_succ (f : Frame) (j : Nat) : prevDuty f (j + 1) = (f.get j).duty.toNat := rfl

/-- No entry has less duty than the one before it (42_sequencer.md R114). -/
theorem Frame.WellFormed.prevDuty_le (h : f.WellFormed) {j : Nat} (hj : j < 4) : prevDuty f j ≤ (f.get j).duty.toNat := by
  cases j with
  | zero => exact Nat.zero_le _
  | succ j => exact h.duty_mono (Nat.le_succ j) hj

/-- A countdown is at most the frame's length under either ARM_REFERENCE (42_sequencer.md R114). -/
theorem Frame.WellFormed.countdown_le (h : f.WellFormed) (ref : ArmReference) {j : Nat} (hj : j < 4) (prev : Nat) :
    countdown ref (f.get j).duty.toNat prev ≤ 10000 := by
  have := h.duty_le hj
  cases ref <;> simp only [countdown, Config.stepDuration] <;> omega

/-- Each entry's countdown leads from its own dequeue to the next one's (42_sequencer.md R123, R124). -/
theorem Frame.WellFormed.dequeueOffset_succ (h : f.WellFormed) (ref : ArmReference) {j : Nat} (hj : j < 4) :
    dequeueOffset ref f (j + 1) = dequeueOffset ref f j + countdown ref (f.get j).duty.toNat (prevDuty f j) := by
  cases ref with
  | frameStart =>
    simp only [dequeueOffset, countdown, prevDuty_succ]
    rw [← Nat.add_mul, Nat.add_sub_cancel' (h.prevDuty_le hj)]
  | armTime => simp only [dequeueOffset, countdown, dutySum, Nat.add_mul]

/-- Entry 0 is dequeued at the swap. -/
@[simp] theorem dequeueOffset_zero (ref : ArmReference) (f : Frame) : dequeueOffset ref f 0 = 0 := by
  cases ref <;> simp [dequeueOffset, dutySum]

end

/-- Settles O34: the four countdowns lead from the swap to the dequeue that ends the frame. -/
theorem countdownRange : Obligations.CountdownRange := by
  intro f h
  refine ⟨fun j hj => ⟨h.prevDuty_le hj, fun ref => h.countdown_le ref hj _⟩, ?sum⟩
  have hend : dequeueOffset .frameStart f 4 = 10000 := by
    rw [dequeueOffset, prevDuty_succ, h.duty_last]
    rfl
  simpa [h.dequeueOffset_succ] using hend

/-! ### The invariants of a state that a transaction starts from -/

/-- The invariants do not speak of the turns to come. -/
theorem Inv.of_turns {s : State} (h : Inv s) (schedule : List Turn) (hostLater : HostLater) :
    Inv { s with schedule := schedule, hostLater := hostLater } :=
  SameFrames.inv (s := s) ⟨rfl, rfl, rfl, rfl, rfl, rfl, rfl, rfl⟩ h h.notStarted h.armed

/-- A block that is started and armed meets the invariants if it met them before. -/
theorem Inv.started_armed {s : State} (h : Inv s) : Inv { s with started := true, tarmed := true } :=
  SameFrames.inv (s := s) ⟨rfl, rfl, rfl, rfl, rfl, rfl, rfl, rfl⟩ h (fun hn => nomatch hn) fun _ => rfl

/-! ### The frame clock -/

/-- What the clock says of the arm that is the last one of the trace. -/
theorem Clock.of_lastArm {s : State} (h : Clock s) (hfault : s.fault = .noFault) (htarmed : s.tarmed = true) {t n : Nat}
    {k : ArmKind} (harm : lastArm s.trace = some (t, n, k)) :
    s.now + s.tcnt.toNat = t + n ∧ s.tcnt.toNat ≤ n ∧ ClockKind s t n k := by
  obtain ⟨t', n', k', harm', hclock⟩ := h hfault htarmed
  obtain ⟨rfl, rfl, rfl⟩ : t' = t ∧ n' = n ∧ k' = k := by simpa [harm] using harm'.symm
  exact hclock

/-- The next dequeue of a running frame is due now: NOW is its offset from the swap (42_sequencer.md R123, R124). -/
def DequeueDue (s : State) : Prop :=
  ∃ t0, lastSwap s.trace = some t0 ∧ s.now = t0 + dequeueOffset s.cfg.armReference s.act s.actCur.toNat

/-- When the timer of a running frame is at 0, the next dequeue is due. -/
theorem Clock.dequeueDue {s : State} (h : Clock s) (he : s.expiryEnabled = true) (hcur : s.actCur.toNat < 4) :
    DequeueDue s := by
  obtain ⟨htarmed, htcnt, hfault⟩ := (expiryEnabled_iff s).mp he
  obtain ⟨t, n, k, -, hnow, -, hkind⟩ := h hfault htarmed
  have hend : s.now = t + n := by simpa [htcnt] using hnow
  cases k with
  | idle => simp [hkind.1] at hcur
  | entry j l d dl =>
    obtain ⟨hcursor, -, -, -, t0, hswap, -, hnext⟩ := hkind
    exact ⟨t0, hswap, by rw [hend, hcursor, hnext]⟩

/-- A swap makes the dequeue of entry 0 due. -/
theorem dequeueDue_swapFrame (s : State) : DequeueDue (swapFrame s) :=
  ⟨s.now, by simp [Event.asSwap], by simp⟩

/-- An entry's STEP keeps the time of the last swap. -/
theorem stepEntry_lastSwap (s : State) : lastSwap (stepEntry s).trace = lastSwap s.trace := by
  cases h : s.curLine <;> simp [h, Event.asSwap]

/-- An entry's STEP advances the cursor by one (42_sequencer.md R107). -/
theorem stepEntry_actCur_toNat {s : State} (hcur : s.actCur.toNat < 4) :
    (stepEntry s).actCur.toNat = s.actCur.toNat + 1 := by
  rw [stepEntry_actCur, BitVec.toNat_add_of_lt (by simpa using by omega)]
  rfl

/-- A due dequeue meets the clock: the countdown armed leads to the next dequeue. -/
theorem stepEntry_clock {s : State} (hframe : s.act.WellFormed) (hcur : s.actCur.toNat < 4) (hdue : DequeueDue s) :
    Clock (stepEntry s) := by
  intro _ _
  obtain ⟨t0, hswap, hnow⟩ := hdue
  have hcount := hframe.countdown_le s.cfg.armReference hcur (prevDuty s.act s.actCur.toNat)
  have htcnt : (stepEntry s).tcnt.toNat =
      countdown s.cfg.armReference (s.act.get s.actCur.toNat).duty.toNat (prevDuty s.act s.actCur.toNat) := by
    rw [stepEntry_tcnt, BitVec.toNat_ofNat, Nat.mod_eq_of_lt (by omega)]
  refine ⟨s.now, _, _, by rw [stepEntry_trace, lastArm_append_one]; rfl, by rw [stepEntry_now, htcnt], htcnt.le, ?kind⟩
  refine ⟨stepEntry_actCur_toNat hcur, by rw [stepEntry_act], by rw [stepEntry_act], rfl, t0, ?_, ?_, ?_⟩
  · rw [stepEntry_lastSwap, hswap]
  · rw [stepEntry_cfg, stepEntry_act, hnow]
  · rw [stepEntry_cfg, stepEntry_act, hframe.dequeueOffset_succ _ hcur, hnow, Nat.add_assoc]

/-- An idle arm on an exhausted frame meets the clock. -/
theorem stepIdle_clock {s : State} (hcur : s.actCur = 4#3) : Clock (stepIdle s) := by
  intro _ _
  have hdelay : s.cfg.idleDelay ≤ 65535 := s.cfg.idleDelayLessOne.isLt
  have htcnt : (stepIdle s).tcnt.toNat = s.cfg.idleDelay := by
    rw [stepIdle_tcnt, BitVec.toNat_ofNat, Nat.mod_eq_of_lt (by omega)]
  refine ⟨s.now, _, _, by rw [stepIdle_trace, lastArm_append_one]; rfl, by rw [stepIdle_now, htcnt], htcnt.le, ?kind⟩
  exact ⟨hcur, rfl⟩

/-- STEP meets the clock on each of its three paths, if the dequeue it makes in a running frame is due. -/
theorem sequencerStep_clock {s : State} (h : Inv s) (hdue : s.actCur.toNat < 4 → DequeueDue s) : Clock (sequencerStep s) := by
  obtain ⟨hcur, e⟩ | ⟨-, hpnd, e⟩ | ⟨hcur, -, e⟩ := sequencerStep_cases s <;> rw [e]
  · exact stepEntry_clock (h.after (h.swapped_of_running hcur)).frame hcur (hdue hcur)
  · have hframe : (swapFrame s).act.WellFormed := by simpa using h.pending (h.submitted_of_pending hpnd)
    exact stepEntry_clock hframe (by simp) (dequeueDue_swapFrame s)
  · exact stepIdle_clock (BitVec.eq_of_toNat_eq (le_antisymm h.cursorHigh hcur))

/-- The clock speaks of no more than these parts of the state. -/
theorem Clock.congr {s t : State} (h : Clock s) (hact : t.act = s.act) (hcursor : t.actCur = s.actCur)
    (hcfg : t.cfg = s.cfg) (hfault : t.fault = s.fault) (htarmed : t.tarmed = s.tarmed)
    (hnow : t.fault = .noFault → t.tarmed = true →
      t.now + t.tcnt.toNat = s.now + s.tcnt.toNat ∧ t.tcnt.toNat ≤ s.tcnt.toNat)
    (harm : lastArm t.trace = lastArm s.trace) (hswap : lastSwap t.trace = lastSwap s.trace) : Clock t := by
  intro hf ha
  obtain ⟨hsum, hle⟩ := hnow hf ha
  obtain ⟨u, n, k, harm', hnow', hle', hkind⟩ := h (hfault ▸ hf) (htarmed ▸ ha)
  refine ⟨u, n, k, harm.trans harm', hsum.trans hnow', hle.trans hle', ?_⟩
  cases k with
  | idle => simpa [ClockKind, hcursor, hcfg] using hkind
  | entry j l d dl => simpa [ClockKind, hact, hcursor, hcfg, hswap] using hkind

/-- A fault freezes the timer, so the clock says nothing of a faulted state (60_exceptions.md R137). -/
theorem clock_of_fault {s : State} (h : s.fault ≠ .noFault) : Clock s :=
  fun hfault => absurd hfault h

/-- After a fault is raised there is one. -/
theorem raiseFault_fault_ne {c : FaultCode} (hc : c ≠ .noFault) (s : State) : (s.raiseFault c).fault ≠ .noFault := by
  rw [State.raiseFault_fault]
  split <;> assumption

/-- A bad access leaves a fault. -/
theorem badAccess_fault_ne (a : Access) (s : State) : (badAccess a s).fault ≠ .noFault := by
  cases a <;> exact raiseFault_fault_ne (c := .badAccess) nofun s

/-- A tick keeps the clock: what passes of the time goes off the count. -/
theorem tickEffect_clock {s : State} (h : Clock s) (he : s.expiryEnabled = false) : Clock (tickEffect s) := by
  refine h.congr rfl rfl rfl rfl rfl (fun hfault htarmed => ?_) rfl rfl
  rw [tickEffect_fault] at hfault
  rw [tickEffect_tarmed] at htarmed
  have hpos : s.tcnt ≠ 0#16 := fun htcnt => by simp [(expiryEnabled_iff s).mpr ⟨htarmed, htcnt, hfault⟩] at he
  rw [tickEffect_tcnt, if_pos ⟨hfault, htarmed, hpos⟩, tickEffect_now]
  bv_omega

/-- Every instruction keeps the clock. -/
theorem exec_clock {i : Instr} {s t : State} (hs : Inv s) (h : Clock s) (hexec : exec i s = .next t) : Clock t := by
  obtain rfl | ⟨fr, fg, fb, -, -, rfl⟩ | ⟨-, -, -, rfl⟩ | ⟨-, -, hstarted, rfl⟩ | ⟨w, -, -, rfl⟩ | ⟨-, -, w, rfl⟩ |
    ⟨-, he, rfl⟩ | ⟨-, he, rfl⟩ := exec_cases hexec
  · exact h
  · exact h.congr rfl rfl rfl rfl rfl (fun _ _ => ⟨rfl, le_rfl⟩) (by simp [Event.asArm]) (by simp [Event.asSwap])
  · exact clock_of_fault (raiseFault_fault_ne (c := .startTwice) nofun s)
  · rw [← sequencerStep_of_tarmed true]
    refine sequencerStep_clock hs.started_armed fun hcur => ?_
    exact absurd (hs.notStarted hstarted).2.2 (by simp [hs.swapped_of_running hcur])
  · exact clock_of_fault (raiseFault_fault_ne (c := .illegalCmd) nofun s)
  · exact h.congr rfl rfl rfl rfl rfl (fun _ _ => ⟨rfl, le_rfl⟩) rfl rfl
  · rw [sequencerStep_of_tarmed]
    exact sequencerStep_clock hs (h.dequeueDue he)
  · exact tickEffect_clock h he

/-- Settles O47: a transaction runs in the state with one turn taken off, which has the same clock; a reset disarms the timer,
and every other transaction keeps the clock or leaves a fault. -/
theorem stepKeepsClock : Obligations.StepKeepsClock := by
  intro s t hs h hstep
  obtain ⟨u, schedule, hostLater, hu, moved⟩ := step_cases hstep
  have hinv : Inv u := hu ▸ hs.of_turns schedule hostLater
  have hclock : Clock u := hu ▸ h.congr rfl rfl rfl rfl rfl (fun _ _ => ⟨rfl, le_rfl⟩) rfl rfl
  obtain ⟨i, hi⟩ | rfl | ⟨a, rfl⟩ := moved
  · exact exec_clock hinv hclock hi
  · exact fun _ htarmed => nomatch htarmed
  · exact clock_of_fault (badAccess_fault_ne a u)

/-! ### The timing of a running frame -/

/-- A trace with a SwapEv is one since whose reset a swap has happened. -/
theorem swapped_of_lastSwap {s : State} {t0 : Nat} (h : lastSwap s.trace = some t0) : s.swapped = true := by
  by_contra hs
  rw [lastSwap_eq_none s.trace (Bool.eq_false_iff.mpr hs)] at h
  cases h

/-- Under FRAME_START an entry is dequeued when the duty before it is over (42_sequencer.md R123). -/
theorem dequeueOffset_frameStart (f : Frame) (j : Nat) : dequeueOffset .frameStart f j = prevDuty f j * 100 := rfl

/-- Settles O51: an entry whose line has fallen has no more duty than the entry before the one that counts, whose duty is
over, and one whose line is high has at least the duty that counts. -/
theorem lineHighForItsDuty : Obligations.LineHighForItsDuty := by
  intro s t0 t n j d dl l e k hs hclock href hfault htarmed htcnt hswap harm he hline
  obtain ⟨hframe, -, hlevels⟩ := hs.after (swapped_of_lastSwap hswap)
  obtain ⟨hnow, hle, hcursor, -, -, -, t0', hswap', hfrom, hto⟩ := hclock.of_lastArm hfault htarmed harm
  obtain rfl : t0' = t0 := Option.some.inj (hswap'.symm.trans hswap)
  have hpos : 0 < s.tcnt.toNat := by bv_omega
  have hhigh := hs.cursorHigh
  rw [href, dequeueOffset_frameStart] at hfrom
  rw [href, dequeueOffset_frameStart, prevDuty_succ] at hto
  obtain ⟨i, hi, rfl⟩ : ∃ i, i < 3 ∧ s.act.get i = e := by
    simp only [List.mem_cons, List.not_mem_nil, or_false] at he
    obtain rfl | rfl | rfl := he
    · exact ⟨0, by decide, rfl⟩
    · exact ⟨1, by decide, rfl⟩
    · exact ⟨2, by decide, rfl⟩
  rw [hlevels i k hi hline, hcursor]
  obtain hij | hij := Nat.lt_or_ge i j
  · have hover : (s.act.get i).duty.toNat ≤ prevDuty s.act j := by
      obtain ⟨j, rfl⟩ := Nat.exists_eq_succ_of_ne_zero (Nat.ne_zero_of_lt hij)
      exact hframe.duty_mono (Nat.le_of_lt_succ hij) (by omega)
    omega
  · have hahead : (s.act.get j).duty.toNat ≤ (s.act.get i).duty.toNat := hframe.duty_mono hij (by omega)
    omega

/-- Settles O52: the arm that is over is the sentinel's, whose duty of 100 ends 10000 time units after the swap. -/
theorem frameLastsFrameLength : Obligations.FrameLastsFrameLength := by
  intro s t0 t n j d dl l hs hclock href hfault htarmed htcnt hcur hswap harm
  obtain ⟨hframe, -, -⟩ := hs.after (swapped_of_lastSwap hswap)
  obtain ⟨hnow, -, hcursor, -, -, -, t0', hswap', -, hto⟩ := hclock.of_lastArm hfault htarmed harm
  obtain rfl : t0' = t0 := Option.some.inj (hswap'.symm.trans hswap)
  obtain rfl : j = 3 := by simpa [hcur] using hcursor.symm
  rw [href, dequeueOffset_frameStart, prevDuty_succ, hframe.duty_last] at hto
  simpa [htcnt] using hnow.trans hto

/-! ### The pulses of a frame -/

/-- Events that are appended keep the pulses if they hold a rise for each swap, and a fall for each rise but for what they
change of the line's level. -/
theorem Pulses.of_append {s t : State} (h : Pulses s) {es : List Event} (htrace : t.trace = s.trace ++ es)
    (hpulses : ∀ k, es.countP (Event.drives k true) = es.countP Event.isSwap ∧
      es.countP (Event.drives k false) + bit (t.lines.get k) =
        es.countP (Event.drives k true) + bit (s.lines.get k)) : Pulses t := by
  intro k
  obtain ⟨hrise, hfall⟩ := h k
  obtain ⟨hrise', hfall'⟩ := hpulses k
  simp only [bit] at hfall'
  simp only [htrace, List.countP_append]
  omega

/-- The turn-off of a high line is its fall (42_sequencer.md R108). -/
theorem turnOff_pulses {s : State} (h : Pulses s) (hhigh : ∀ k, s.curLine = some k → s.lines.get k = true) :
    Pulses (turnOff s) := by
  refine h.of_append (turnOff_trace s) fun k => ?_
  rw [turnOff_get]
  cases hline : s.curLine with
  | none => simp
  | some k' =>
    by_cases hk : k' = k
    · simp [Event.drives, Event.isSwap, hk, hhigh k (hk ▸ hline), bit]
    · simp [Event.drives, Event.isSwap, hk]

/-- A swap on low lines is a rise of each (42_sequencer.md R110). -/
theorem swapFrame_pulses {s : State} (h : Pulses s) (hlow : ∀ k, s.lines.get k = false) : Pulses (swapFrame s) := by
  refine h.of_append (swapFrame_trace s) fun k => ?_
  rw [hlow, swapFrame_lines]
  cases k <;> exact ⟨rfl, rfl⟩

/-- An entry's STEP keeps the pulses if the line it turns off is high. -/
theorem stepEntry_pulses {s : State} (h : Pulses s) (hhigh : ∀ k, s.curLine = some k → s.lines.get k = true) :
    Pulses (stepEntry s) :=
  (turnOff_pulses h hhigh).of_append (stepEntry_trace s) fun k => by simp [Event.drives, Event.isSwap]

/-- In a running frame the current line is still high (10_state.md R44). -/
theorem Inv.curLine_high {s : State} (h : Inv s) (hcur : s.actCur.toNat < 4) {k : Line} (hk : s.curLine = some k) :
    s.lines.get k = true := by
  have hlow := h.cursorLow
  obtain ⟨-, hline, hlevels⟩ := h.after (h.swapped_of_running hcur)
  exact (hlevels (s.actCur.toNat - 1) k (by omega) (hline ▸ hk)).mpr (by omega)

/-- Each line has its entry in a well-formed frame (10_state.md R43). -/
theorem Frame.WellFormed.exists_line_eq {f : Frame} (h : f.WellFormed) (k : Line) : ∃ j, j < 3 ∧ (f.get j).line = some k := by
  have hmem : some k ∈ [f.e0.line, f.e1.line, f.e2.line] := h.lines.mem_iff.mpr (by cases k <;> decide)
  obtain ⟨j, hj, hline⟩ := List.mem_iff_getElem.mp hmem
  exact ⟨j, hj, (f.line_eq_getElem hj).trans hline⟩

/-- On an exhausted frame every line is low (10_state.md R44). -/
theorem Inv.lines_low {s : State} (h : Inv s) (hcur : 4 ≤ s.actCur.toNat) (k : Line) : s.lines.get k = false := by
  cases hs : s.swapped with
  | false => rw [(h.before hs).low]; cases k <;> rfl
  | true =>
    obtain ⟨hframe, -, hlevels⟩ := h.after hs
    obtain ⟨j, hj, hline⟩ := hframe.exists_line_eq k
    refine Bool.eq_false_iff.mpr fun hhigh => ?_
    have := (hlevels j k hj hline).mp hhigh
    omega

/-- STEP keeps the pulses on each of its three paths: the fall of the current line, the rises of a swap, or no pulse. -/
theorem sequencerStep_pulses {s : State} (hs : Inv s) (h : Pulses s) : Pulses (sequencerStep s) := by
  obtain ⟨hcur, e⟩ | ⟨hcur, -, e⟩ | ⟨-, -, e⟩ := sequencerStep_cases s <;> rw [e]
  · exact stepEntry_pulses h fun k => hs.curLine_high hcur
  · refine stepEntry_pulses (swapFrame_pulses h (hs.lines_low hcur)) fun k hk => ?_
    simp [hs.curLine_of_exhausted hcur] at hk
  · exact h.of_append (stepIdle_trace s) fun k => by simp [Event.drives, Event.isSwap]

/-- A fault is no pulse. -/
theorem raiseFault_pulses {s : State} (h : Pulses s) (c : FaultCode) : Pulses (s.raiseFault c) := by
  refine h.of_append (State.raiseFault_trace c s) fun k => ?_
  split <;> simp [Event.drives, Event.isSwap]

/-- Every instruction keeps the pulses. -/
theorem exec_pulses {i : Instr} {s t : State} (hs : Inv s) (h : Pulses s) (hexec : exec i s = .next t) : Pulses t := by
  obtain rfl | ⟨fr, fg, fb, -, -, rfl⟩ | ⟨-, -, -, rfl⟩ | ⟨-, -, -, rfl⟩ | ⟨w, -, -, rfl⟩ | ⟨-, -, w, rfl⟩ |
    ⟨-, -, rfl⟩ | ⟨-, -, rfl⟩ := exec_cases hexec
  · exact h
  · exact h.of_append (submitFrame_trace fr fg fb s) fun k => by simp [Event.drives, Event.isSwap]
  · exact raiseFault_pulses h _
  · rw [← sequencerStep_of_tarmed true]
    exact sequencerStep_pulses hs.started_armed h
  · exact raiseFault_pulses h _
  · exact h
  · rw [sequencerStep_of_tarmed]
    exact sequencerStep_pulses hs h
  · exact h

/-- Settles O48: a transaction runs in the state with one turn taken off, which has the same trace and lines; a reset empties
the trace with every line low, and every other transaction keeps the pulses. -/
theorem stepKeepsPulses : Obligations.StepKeepsPulses := by
  intro s t hs h hstep
  obtain ⟨u, schedule, hostLater, hu, moved⟩ := step_cases hstep
  have hinv : Inv u := hu ▸ hs.of_turns schedule hostLater
  have hpulses : Pulses u := hu ▸ h
  obtain ⟨i, hi⟩ | rfl | ⟨a, rfl⟩ := moved
  · exact exec_pulses hinv hpulses hi
  · intro k
    cases k <;> exact ⟨rfl, rfl⟩
  · cases a <;> exact raiseFault_pulses hpulses .badAccess

/-! ### A block that is left to itself -/

/-- The host makes no more accesses: no turn is scheduled and none follows (assumption 1). -/
def HostSilent (s : State) : Prop := s.schedule = [] ∧ s.hostLater = .silent

/-- With a silent host the step is the block's move. -/
theorem step_of_silent {s : State} (h : HostSilent s) : step s = blockMove s := by
  rw [step, nextTransaction, nextTurn_silent h.1 h.2, takeTurn]

/-- With a silent host a run goes on from the block's move. -/
theorem run_succ_of_silent (n : Nat) {s t : State} (h : HostSilent s) (hmove : blockMove s = .next t) :
    Sys2Proof.core.run (n + 1) s = Sys2Proof.core.run n t := by
  have hstep : Sys2Proof.core.step s = .next t := (step_of_silent h).trans hmove
  simp only [Host.Core.run, hstep]

/-- A move of the block keeps the host silent. -/
theorem HostSilent.of_blockMove {s t : State} (h : HostSilent s) (hmove : blockMove s = .next t) : HostSilent t := by
  obtain ⟨hschedule, hlater⟩ := takeTurn_turns (turn := .block) hmove
  exact ⟨hschedule.trans h.1, hlater.trans h.2⟩

/-- A move of the block answers, and NOW does not go back. -/
theorem exists_blockMove (s : State) : ∃ t, blockMove s = .next t ∧ s.now ≤ t.now := by
  cases he : s.expiryEnabled with
  | true => exact ⟨_, blockMove_of_enabled he, (sequencerStep_now s).ge⟩
  | false => exact ⟨_, blockMove_of_not_enabled he, Nat.le_succ _⟩

/-- Left to itself, the block makes any number of moves. -/
theorem exists_run_of_silent (n : Nat) {s : State} (h : HostSilent s) :
    ∃ t, Sys2Proof.core.run n s = .next t ∧ s.now ≤ t.now := by
  induction n generalizing s with
  | zero => exact ⟨s, rfl, le_rfl⟩
  | succ n ih =>
    obtain ⟨u, hmove, hle⟩ := exists_blockMove s
    obtain ⟨t, hrun, hle'⟩ := ih (h.of_blockMove hmove)
    exact ⟨t, (run_succ_of_silent n h hmove).trans hrun, hle.trans hle'⟩

/-- A tick of an armed timer that is not at 0 counts one time unit. -/
theorem blockMove_of_counting {s : State} (hfault : s.fault = .noFault) (htarmed : s.tarmed = true) (htcnt : s.tcnt ≠ 0#16) :
    blockMove s = .next { s with now := s.now + 1, tcnt := s.tcnt - 1#16 } := by
  have he : s.expiryEnabled = false := Bool.eq_false_iff.mpr fun he => htcnt ((expiryEnabled_iff s).mp he).2.1
  rw [blockMove_of_not_enabled he, tickEffect, if_pos ⟨hfault, htarmed, htcnt⟩]

/-- Settles O53, by induction on the count: each tick takes one time unit off it, and the run goes on from there. -/
theorem armedTimerFires : Obligations.ArmedTimerFires := by
  intro s hschedule hlater hfault htarmed
  induction hn : s.tcnt.toNat generalizing s with
  | zero =>
    have hzero : s.tcnt = 0#16 := BitVec.eq_of_toNat_eq hn
    rw [← hzero]
    rfl
  | succ n ih =>
    have htcnt : s.tcnt ≠ 0#16 := by bv_omega
    have hless : (s.tcnt - 1#16).toNat = n := by bv_omega
    have hrest := ih { s with now := s.now + 1, tcnt := s.tcnt - 1#16 } hschedule hlater hfault htarmed hless
    rw [run_succ_of_silent n ⟨hschedule, hlater⟩ (blockMove_of_counting hfault htarmed htcnt), hrest, Nat.add_right_comm,
      Nat.add_assoc]

/-- A tick lets time pass, and no later move takes it back. -/
theorem exists_run_now_lt_of_tick (n : Nat) {s : State} (h : HostSilent s) (he : s.expiryEnabled = false) :
    ∃ t, Sys2Proof.core.run (n + 1) s = .next t ∧ s.now < t.now := by
  have hmove := blockMove_of_not_enabled he
  obtain ⟨t, hrun, hle⟩ := exists_run_of_silent n (h.of_blockMove hmove)
  exact ⟨t, (run_succ_of_silent n h hmove).trans hrun, hle⟩

/-- Left to itself, the block lets time pass one move after the last expiry of the present instant. -/
theorem exists_run_now_lt {n : Nat} {s : State} (hs : Inv s) (h : HostSilent s) (hleft : expiriesLeft s ≤ n) :
    ∃ t, Sys2Proof.core.run (n + 1) s = .next t ∧ s.now < t.now := by
  induction n generalizing s with
  | zero =>
    have he : s.expiryEnabled = false := Bool.eq_false_iff.mpr fun he => by
      have := expiriesLeft_sequencerStep_lt hs he
      omega
    exact exists_run_now_lt_of_tick 0 h he
  | succ n ih =>
    cases he : s.expiryEnabled with
    | false => exact exists_run_now_lt_of_tick (n + 1) h he
    | true =>
      have hmove := blockMove_of_enabled he
      have hless := expiriesLeft_sequencerStep_lt hs he
      obtain ⟨t, hrun, hlt⟩ := ih (exec_inv hs hmove) (h.of_blockMove hmove) (by omega)
      rw [sequencerStep_now] at hlt
      exact ⟨t, (run_succ_of_silent (n + 1) h hmove).trans hrun, hlt⟩

/-- Settles O54: the present instant holds at most seven expiries, and the move after them is a tick. -/
theorem instantChainBound : Obligations.InstantChainBound := by
  intro s hs hschedule hlater
  exact exists_run_now_lt hs ⟨hschedule, hlater⟩ (expiriesLeft_le_seven hs)

end Sys2Proof.Machine
end

section
/-! The exceptions family (60_exceptions.md): whose turn it is, what a transaction that raises a fault does, what a faulted
block does, the two orders of a SUBMIT and an expiry, and a host that keeps its duties and so never faults the block. -/

namespace Sys2Proof.Machine

open Sys2Proof.Spec

/-! ### Whose turn it is -/

/-- Settles O58: one clause for each form of the turns to come. -/
theorem turnsOfTheHost : Obligations.TurnsOfTheHost := by
  intro s
  exact ⟨fun _ _ h => nextTurn_cons h, nextTurn_silent, fun _ h hlater => nextTurn_goesOn h hlater⟩

/-- The step performs the next turn in the state with that turn taken off. -/
theorem step_of_turn {s u : State} {turn : Turn} (h : s.nextTurn = (turn, u)) : step s = takeTurn turn u := by
  rw [step, nextTransaction, h]

/-- Taking a turn off does not enable or disable the expiry. -/
theorem nextTurn_expiryEnabled (s : State) : s.nextTurn.2.expiryEnabled = s.expiryEnabled := by
  rw [nextTurn_state]
  rfl

/-- Settles O8: the block's move is its enabled event, and which one that is does not depend on the turns to come. -/
theorem stepRunsEnabledEvent : Obligations.StepRunsEnabledEvent := by
  intro s u hturn
  have henabled : u.expiryEnabled = s.expiryEnabled := by rw [← nextTurn_expiryEnabled s, hturn]
  rw [step_of_turn hturn, takeTurn, blockMove, enabledEvent, henabled]
  simp only [expiryEnabled_iff]

/-! ### FAULT and STARTED under an instruction -/

/-- STEP raises no fault. -/
@[simp] theorem sequencerStep_fault (s : State) : (sequencerStep s).fault = s.fault := by
  obtain ⟨-, e⟩ | ⟨-, -, e⟩ | ⟨-, -, e⟩ := sequencerStep_cases s <;> simp [e]

/-- STEP does not write STARTED. -/
@[simp] theorem sequencerStep_started (s : State) : (sequencerStep s).started = s.started := by
  obtain ⟨-, e⟩ | ⟨-, -, e⟩ | ⟨-, -, e⟩ := sequencerStep_cases s <;> simp [e]

/-- An instruction keeps FAULT, and STARTED unless it is START; or it is a second START or an ILLEGAL, and does nothing but
raise a fault (60_exceptions.md R133). -/
theorem exec_fault_cases {i : Instr} {s t : State} (h : exec i s = .next t) :
    (t.fault = s.fault ∧ (i ≠ .start → t.started = s.started)) ∨
      (((i = .start ∧ s.started = true) ∨ ∃ w, i = .illegal w) ∧ ∃ c, t = s.raiseFault c) := by
  obtain rfl | ⟨fr, fg, fb, -, -, rfl⟩ | ⟨rfl, -, hstarted, rfl⟩ | ⟨rfl, -, -, rfl⟩ | ⟨w, rfl, -, rfl⟩ | ⟨-, -, w, rfl⟩ |
    ⟨-, -, rfl⟩ | ⟨-, -, rfl⟩ := exec_cases h
  · exact .inl ⟨rfl, fun _ => rfl⟩
  · exact .inl ⟨rfl, fun _ => rfl⟩
  · exact .inr ⟨.inl ⟨rfl, hstarted⟩, _, rfl⟩
  · exact .inl ⟨sequencerStep_fault _, fun hne => absurd rfl hne⟩
  · exact .inr ⟨.inr ⟨w, rfl⟩, _, rfl⟩
  · exact .inl ⟨rfl, fun _ => rfl⟩
  · exact .inl ⟨sequencerStep_fault _, fun _ => sequencerStep_started _⟩
  · exact .inl ⟨rfl, fun _ => rfl⟩

/-- A read decodes to no command (20_memory.md R52). -/
theorem encodeWord_of_decode_read {rel : Int} {n : Nat} {i : Instr} (h : decode (.read rel n) = .ok i) :
    encodeWord i = none := by
  obtain ⟨henc, -⟩ := encodeInvertsDecode _ i h
  cases hw : encodeWord i with
  | none => rfl
  | some w => cases (encode_of_encodeWord hw).symm.trans henc

/-- A write decodes to a command (20_memory.md R52). -/
theorem encodeWord_of_decode_write {rel : Int} {data : List Byte} {i : Instr} (h : decode (.write rel data) = .ok i) :
    ∃ w, encodeWord i = some w := by
  obtain ⟨henc, -⟩ := encodeInvertsDecode _ i h
  cases hw : encodeWord i with
  | some w => exact ⟨w, rfl⟩
  | none =>
    rw [encode_of_encodeWord_none hw] at henc
    obtain ⟨off, -, hread⟩ := Option.map_eq_some_iff.mp henc
    cases hread

/-! ### The transaction that raises a fault -/

/-- The turn is a host read. -/
def Turn.IsRead (turn : Turn) : Prop := ∃ rel n, turn = .access (.read rel n)

/-- An instruction that takes FAULT from 0 to a code is a command, and does nothing but raise the fault
(60_exceptions.md R136). -/
theorem exec_raises {i : Instr} {s t : State} (h : exec i s = .next t) (hfault : s.fault = .noFault)
    (hraised : t.fault ≠ .noFault) : (∃ w, encodeWord i = some w) ∧ ∃ c, t = s.raiseFault c := by
  obtain ⟨hsame, -⟩ | ⟨⟨rfl, -⟩ | ⟨w, rfl⟩, hc⟩ := exec_fault_cases h
  · exact absurd (hsame.trans hfault) hraised
  · exact ⟨⟨_, rfl⟩, hc⟩
  · exact ⟨⟨w, rfl⟩, hc⟩

/-- A turn that takes FAULT from 0 to a code does nothing but raise the fault; if it is a read, it then returns 0 in every
lane (60_exceptions.md R136). -/
theorem takeTurn_raises {turn : Turn} {u t : State} (h : takeTurn turn u = .next t) (hfault : u.fault = .noFault)
    (hraised : t.fault ≠ .noFault) :
    ∃ c, (∃ rel n, turn = .access (.read rel n) ∧ t = (u.raiseFault c).answer (List.replicate n 0#8)) ∨
      (¬turn.IsRead ∧ t = u.raiseFault c) := by
  obtain ⟨rfl, hexec⟩ | ⟨-, rfl⟩ | ⟨a, rfl, ⟨i, hdec, hexec⟩ | ⟨-, rfl⟩ | ⟨r, -, -, rfl⟩⟩ := takeTurn_cases h
  case inl =>
    obtain ⟨-, c, ht⟩ := exec_raises hexec hfault hraised
    exact ⟨c, .inr ⟨nofun, ht⟩⟩
  case inr.inl => exact absurd (State.resetInput_fault u) hraised
  case inr.inr.inl =>
    obtain ⟨⟨w, hword⟩, c, ht⟩ := exec_raises hexec hfault hraised
    refine ⟨c, .inr ⟨fun ⟨rel, n, hread⟩ => ?_, ht⟩⟩
    cases hread
    cases (encodeWord_of_decode_read hdec).symm.trans hword
  case inr.inr.inr.inl => exact absurd hfault hraised
  case inr.inr.inr.inr =>
    cases a with
    | read rel n => exact ⟨.badAccess, .inl ⟨rel, n, rfl, rfl⟩⟩
    | write rel data => exact ⟨.badAccess, .inr ⟨nofun, rfl⟩⟩

/-- Settles O40: the transaction runs in the state with one turn taken off, and does nothing there but raise the fault and,
for a read, reply 0. -/
theorem faultsArePrecise : Obligations.FaultsArePrecise := by
  intro s t hstep hfault hraised
  have hu := nextTurn_state s
  have hufault : s.nextTurn.2.fault = .noFault := by rw [hu]; exact hfault
  obtain ⟨c, ⟨rel, n, hturn, rfl⟩ | ⟨hturn, rfl⟩⟩ := takeTurn_raises hstep hufault hraised
  · refine ⟨?state, fun rel' n' h => ?zero, fun h => absurd hturn (h rel n)⟩
    case state =>
      rw [raiseFault_of_noFault hufault, hu]
      rfl
    case zero =>
      cases hturn.symm.trans h
      rfl
  · refine ⟨?state, fun rel n h => absurd ⟨rel, n, h⟩ hturn, fun _ => ?reply⟩
    case state =>
      rw [raiseFault_of_noFault hufault, hu]
    case reply =>
      rw [State.raiseFault_reply, hu]

/-! ### The faulted block -/

/-- The first fault wins (60_exceptions.md R135). -/
theorem raiseFault_of_fault {s : State} (h : s.fault ≠ .noFault) (c : FaultCode) : s.raiseFault c = s :=
  if_neg h

/-- In a fault every command is ignored (60_exceptions.md R137). -/
theorem exec_command_of_fault {i : Instr} {w : Word} {s : State} (hw : encodeWord i = some w) (h : s.fault ≠ .noFault) :
    exec i s = .next s := by
  have ignored : ∀ f, s.command f = s := fun f => if_neg h
  cases i with
  | nop | submit | start | illegal => exact congrArg _ (ignored _)
  | rdStatus | rdTimer | rdAct0 | rdAct1 | rdAct2 | rdAct3 | rdPnd0 | rdPnd1 | rdPnd2 | rdPnd3 | expire | timeTick => cases hw

/-- In a fault a write has no effect: it is outside the window, or a command, or a bad access that raises no new fault
(60_exceptions.md R137). -/
theorem hostAccess_write_of_fault {s : State} (h : s.fault ≠ .noFault) (rel : Int) (data : List Byte) :
    hostAccess (.write rel data) s = .next s := by
  rw [hostAccess]
  split
  · obtain ⟨w, hw⟩ := encodeWord_of_decode_write ‹_›
    exact exec_command_of_fault hw h
  · rw [badAccess, raiseFault_of_fault h, ite_self]

/-- In a fault no expiry is enabled (42_sequencer.md R120). -/
theorem expiryEnabled_of_fault {s : State} (h : s.fault ≠ .noFault) : s.expiryEnabled = false :=
  Bool.eq_false_iff.mpr fun he => h ((expiryEnabled_iff s).mp he).2.2

/-- In a fault a tick writes NOW alone (60_exceptions.md R137). -/
theorem tickEffect_of_fault {s : State} (h : s.fault ≠ .noFault) : tickEffect s = { s with now := s.now + 1 } := by
  rw [tickEffect, if_neg fun hcount => h hcount.1]

/-- Settles O41: a write is ignored, and the block's move is a tick with the timer frozen. -/
theorem faultHaltsBlock : Obligations.FaultHaltsBlock := by
  intro s u hfault
  refine ⟨fun rel data hturn _ _ => ?write, fun hturn => ?move⟩
  case write => rw [step_of_access hturn, hostAccess_write_of_fault hfault]
  case move => rw [step_of_turn hturn, takeTurn, blockMove_of_not_enabled (expiryEnabled_of_fault hfault),
    tickEffect_of_fault hfault]

/-- In a fault a read of bad shape replies 0 in every lane and raises nothing (60_exceptions.md R138). -/
theorem step_of_faulted_bad_read {s u : State} {rel : Int} {n : Nat} (hturn : s.nextTurn = (.access (.read rel n), u))
    (hwin : inWindow (Access.read rel n).rel = true) (hfault : u.fault ≠ .noFault) (hbad : badShape u (.read rel n)) :
    step s = .next { u with reply := some (List.replicate n 0#8) } := by
  rw [step_of_access hturn, hostAccess_of_bad hwin (decode_ne_ok_of_badShape hwin hbad), badAccess,
    raiseFault_of_fault hfault, State.answer]

/-- Settles O42: a 4-byte read of a readable register is answered in every state, and every other read of the window is of bad
shape. -/
theorem faultedReads : Obligations.FaultedReads := by
  intro s u rel n hfault hturn hlow hhigh
  have hwin : inWindow rel = true := (inWindow_iff rel).mpr ⟨hlow, hhigh⟩
  have bad := step_of_faulted_bad_read hturn hwin hfault
  cases hvalue : registerValue u rel.toNat with
  | none => exact bad (.inr hvalue)
  | some v =>
    by_cases hsize : n = 4
    · subst hsize
      have hrel : (rel.toNat : Int) = rel := Int.toNat_of_nonneg hlow
      simpa using registerReadAnswers s u rel.toNat v (by rw [hrel]; exact hturn) hvalue
    · simpa [hsize] using bad (.inl hsize)

/-! ### A SUBMIT and an expiry in one instant -/

/-- A run through the two turns of a schedule. -/
theorem run_two_turns {s u t : State} {first second : Turn}
    (hfirst : takeTurn first { s with schedule := [second] } = .next u)
    (hsecond : takeTurn second { u with schedule := [] } = .next t) :
    Sys2Proof.core.run 2 { s with schedule := [first, second] } = .next t := by
  have hschedule : u.schedule = [second] := (takeTurn_turns hfirst).1
  have step1 : Sys2Proof.core.step { s with schedule := [first, second] } = .next u :=
    (step_of_turn (nextTurn_cons rfl)).trans hfirst
  have step2 : Sys2Proof.core.step u = .next t := (step_of_turn (nextTurn_cons hschedule)).trans hsecond
  simp only [Host.Core.run, step1, step2]

/-- The write of a SUBMIT with no fault queues its frame. -/
theorem takeTurn_submit {fr fg fb : Byte} {a : Access} {s : State} (ha : encode (.submit fr fg fb) = some a)
    (hfault : s.fault = .noFault) : takeTurn (.access a) s = .next (submitFrame fr fg fb s) := by
  rw [takeTurn, hostAccess_of_ok (decodeInvertsEncode _ a rfl ha), exec_submit_of_noFault fr fg fb hfault]

/-- The delay of an idle arm fits the timer (00_scope.md R9). -/
theorem stepIdle_tcnt_toNat (s : State) : (stepIdle s).tcnt.toNat = s.cfg.idleDelay := by
  have hdelay : s.cfg.idleDelay < 2 ^ 16 := Nat.succ_lt_succ s.cfg.idleDelayLessOne.isLt
  rw [stepIdle_tcnt, BitVec.toNat_ofNat, Nat.mod_eq_of_lt hdelay]

/-- Settles O56: after the SUBMIT the expiry's STEP finds a frame pending and swaps; before it, STEP idles. -/
theorem submitRacesExpiry : Obligations.SubmitRacesExpiry := by
  intro s fr fg fb a htarmed htcnt hfault hcur hpnd ha
  have due : s.expiryEnabled = true := (expiryEnabled_iff s).mpr ⟨htarmed, htcnt, hfault⟩
  constructor
  case left =>
    have hsubmit := takeTurn_submit (s := { s with schedule := [.block] }) ha hfault
    have hswap := blockMove_of_enabled (s := submitFrame fr fg fb { s with schedule := [] }) due
    rw [sequencerStep_of_pending (s := submitFrame fr fg fb { s with schedule := [] }) hcur rfl] at hswap
    exact ⟨_, run_two_turns hsubmit hswap, by simp, by simp, by simp⟩
  case right =>
    have hidle := blockMove_of_enabled (s := { s with schedule := [.access a] }) due
    rw [sequencerStep_of_idle (s := { s with schedule := [.access a] }) hcur hpnd] at hidle
    have hsubmit := takeTurn_submit (s := stepIdle { s with schedule := [] }) ha hfault
    exact ⟨_, run_two_turns hidle hsubmit, rfl, rfl, rfl, rfl, stepIdle_tcnt_toNat s⟩

/-! ### A host that keeps its duties -/

/-- A move of the block may be put anywhere among the turns: it is no duty of the host's. -/
theorem disciplined_append_block (started : Bool) (turns later : List Turn) :
    disciplined started (turns ++ .block :: later) = disciplined started (turns ++ later) := by
  induction turns generalizing started with
  | nil => rfl
  | cons turn rest ih =>
    cases turn with
    | block => exact ih started
    | reset => exact ih false
    | access a => simp only [List.cons_append, disciplined, ih]

/-- What the duties say of an accepted access: it is the first START of its run, or neither START nor ILLEGAL
(70_reset_and_hazards.md R171). -/
theorem disciplined_of_decode_ok {started : Bool} {a : Access} {i : Instr} {rest : List Turn} (hdec : decode a = .ok i)
    (h : disciplined started (.access a :: rest) = true) :
    (i = .start ∧ started = false ∧ disciplined true rest = true) ∨
      (i ≠ .start ∧ (∀ w, i ≠ .illegal w) ∧ disciplined started rest = true) := by
  rw [disciplined, hdec] at h
  cases i with
  | start => exact .inl ⟨rfl, by simpa using h⟩
  | illegal => cases h
  | nop | submit | expire | timeTick | rdStatus | rdTimer | rdAct0 | rdAct1 | rdAct2 | rdAct3 | rdPnd0 | rdPnd1 | rdPnd2 |
    rdPnd3 => exact .inr ⟨nofun, nofun, h⟩

/-- What the duties say of a rejected access: it does not reach the block. -/
theorem disciplined_of_decode_error {started : Bool} {a : Access} {r : BusReject} {rest : List Turn}
    (hdec : decode a = .error r) (h : disciplined started (.access a :: rest) = true) :
    r = .outsideWindow ∧ disciplined started rest = true := by
  rw [disciplined, hdec] at h
  simpa using h

/-- An instruction other than START and ILLEGAL keeps FAULT and STARTED. -/
theorem exec_keeps_fault_started {i : Instr} {s t : State} (h : exec i s = .next t) (hstart : i ≠ .start)
    (hillegal : ∀ w, i ≠ .illegal w) : t.fault = s.fault ∧ t.started = s.started := by
  obtain ⟨hfault, hstarted⟩ | ⟨⟨hi, -⟩ | ⟨w, hi⟩, -⟩ := exec_fault_cases h
  · exact ⟨hfault, hstarted hstart⟩
  · exact absurd hi hstart
  · exact absurd hi (hillegal w)

/-- The block's own move keeps FAULT and STARTED. -/
theorem blockMove_keeps_fault_started {s t : State} (h : blockMove s = .next t) :
    t.fault = s.fault ∧ t.started = s.started := by
  cases he : s.expiryEnabled with
  | true =>
    cases (blockMove_of_enabled he).symm.trans h
    exact ⟨sequencerStep_fault s, sequencerStep_started s⟩
  | false =>
    cases (blockMove_of_not_enabled he).symm.trans h
    exact ⟨rfl, rfl⟩

/-- The first of the turns that keep the duties raises no fault, and the rest keep them from the state it leads to. -/
theorem takeTurn_disciplined {turn : Turn} {u t : State} {rest : List Turn} (hfault : u.fault = .noFault)
    (h : disciplined u.started (turn :: rest) = true) (hmove : takeTurn turn u = .next t) :
    t.fault = .noFault ∧ disciplined t.started rest = true := by
  obtain ⟨rfl, hexec⟩ | ⟨rfl, rfl⟩ | ⟨a, rfl, ⟨i, hdec, hexec⟩ | ⟨hdec, rfl⟩ | ⟨r, hdec, hr, -⟩⟩ := takeTurn_cases hmove
  case inl =>
    obtain ⟨hkeep, hstarted⟩ := blockMove_keeps_fault_started hexec
    exact ⟨hkeep.trans hfault, hstarted ▸ h⟩
  case inr.inl => exact ⟨State.resetInput_fault u, h⟩
  case inr.inr.inl =>
    obtain ⟨rfl, hstarted, hrest⟩ | ⟨hstart, hillegal, hrest⟩ := disciplined_of_decode_ok hdec h
    · rw [exec_start_of_not_started hfault hstarted] at hexec
      cases hexec
      simpa using ⟨hfault, hrest⟩
    · obtain ⟨hkeep, hstarted⟩ := exec_keeps_fault_started hexec hstart hillegal
      exact ⟨hkeep.trans hfault, hstarted ▸ hrest⟩
  case inr.inr.inr.inl => exact ⟨hfault, (disciplined_of_decode_error hdec h).2⟩
  case inr.inr.inr.inr => exact absurd (disciplined_of_decode_error hdec h).1 hr

/-- When the next turn and those after it keep the duties, the turn leads to a safe state. -/
theorem safe_of_takeTurn {turn : Turn} {u t : State} (hfault : u.fault = .noFault)
    (h : ∀ m, disciplined u.started (turn :: (u.schedule ++ u.hostLater.batches m)) = true)
    (hmove : takeTurn turn u = .next t) : Safe t := by
  have next := fun m => takeTurn_disciplined hfault (h m) hmove
  obtain ⟨hschedule, hlater⟩ := takeTurn_turns hmove
  refine ⟨(next 0).1, fun m => ?_⟩
  rw [hschedule, hlater]
  exact (next m).2

/-- The first turn of a safe state's schedule leads to a safe state. -/
theorem Safe.of_schedule {s t : State} {turn : Turn} {rest : List Turn} (hs : Safe s) (hschedule : s.schedule = turn :: rest)
    (hstep : step s = .next t) : Safe t := by
  rw [step_of_turn (nextTurn_cons hschedule)] at hstep
  obtain ⟨hfault, hhost⟩ := hs
  rw [hschedule] at hhost
  exact safe_of_takeTurn (u := { s with schedule := rest }) hfault hhost hstep

/-- With no turn scheduled, a safe state stays so when it takes up the host's next batch (assumption 1). -/
theorem Safe.of_nextBatch {s : State} {n : Nat} (hs : Safe s) (hschedule : s.schedule = []) (hlater : s.hostLater = .goesOn n) :
    Safe { s with schedule := Config.hostTurns n ++ [.block], hostLater := .goesOn (n + 1) } := by
  obtain ⟨hfault, hhost⟩ := hs
  refine ⟨hfault, fun m => ?_⟩
  have hm := hhost (m + 1)
  rw [hschedule, hlater, List.nil_append, batches_goesOn_succ] at hm
  rwa [List.append_assoc, List.singleton_append, disciplined_append_block]

/-- Settles O50: each turn that keeps the duties leads to a safe state, whether it is a scheduled one, the move of a block
left to itself, or the first of the host's next batch. -/
theorem disciplinedHostNeverFaults : Obligations.DisciplinedHostNeverFaults := by
  intro s t hs hstep
  cases hschedule : s.schedule with
  | cons turn rest => exact hs.of_schedule hschedule hstep
  | nil =>
    cases hlater : s.hostLater with
    | silent =>
      rw [step_of_silent ⟨hschedule, hlater⟩] at hstep
      exact safe_of_takeTurn (turn := .block) hs.1 hs.2 hstep
    | goesOn n =>
      have hbatch := hs.of_nextBatch hschedule hlater
      obtain ⟨turn, rest, hturns⟩ : ∃ turn rest, Config.hostTurns n ++ [.block] = turn :: rest :=
        List.exists_cons_of_ne_nil (by simp)
      refine hbatch.of_schedule hturns ?_
      rwa [step, nextTransaction, ← nextTurn_goesOn hschedule hlater]

end Sys2Proof.Machine
end

section
/-! The reset and hazards family (70_reset_and_hazards.md): the reset input, a step that always answers, and the infinite runs
with no reset in them. On such a run the host cannot hold an instant up: it holds a bounded number of STEPs (R121) whatever
the host submits, so time passes as long as the block keeps moving (R172). -/

namespace Sys2Proof.Machine

open Sys2Proof.Spec

/-! ### Reset -/

/-- Settles O44: after the reset input every element is at its reset value, by its definition, and each register is computed
from those. -/
theorem resetRestoresBlock : Obligations.ResetRestoresBlock := by
  intro s u hturn
  refine ⟨u.resetInput, step_of_turn hturn, rfl, rfl, rfl, rfl, rfl, rfl, rfl, rfl, rfl, rfl, rfl, rfl, rfl,
    fun off v hoff hread => ?_⟩
  unfold registerValue at hread
  split at hread
  case h_1 => exact absurd rfl hoff
  case h_11 => cases hread
  all_goals exact (Option.some.inj hread).symm

/-! ### Every step answers -/

/-- Commands and reads always have a transition; only an event can be without one (42_sequencer.md R119, R120). -/
theorem exists_exec {i : Instr} (hexpire : i ≠ .expire) (htick : i ≠ .timeTick) (s : State) : ∃ t, exec i s = .next t := by
  cases i with
  | expire => exact absurd rfl hexpire
  | timeTick => exact absurd rfl htick
  | nop | submit | start | illegal | rdStatus | rdTimer | rdAct0 | rdAct1 | rdAct2 | rdAct3 | rdPnd0 | rdPnd1 | rdPnd2 |
    rdPnd3 => exact ⟨_, rfl⟩

/-- No access decodes to an event (30_encoding.md R76). -/
theorem ne_event_of_decode {a : Access} {i : Instr} (h : decode a = .ok i) : i ≠ .expire ∧ i ≠ .timeTick := by
  obtain ⟨-, -, hnone⟩ := eventsHaveNoEncoding
  exact ⟨fun hi => (hnone a).1 (hi ▸ h), fun hi => (hnone a).2 (hi ▸ h)⟩

/-- Every host access is answered. -/
theorem exists_hostAccess (a : Access) (s : State) : ∃ t, hostAccess a s = .next t := by
  cases hdec : decode a with
  | ok i =>
    obtain ⟨hexpire, htick⟩ := ne_event_of_decode hdec
    obtain ⟨t, ht⟩ := exists_exec hexpire htick s
    exact ⟨t, (hostAccess_of_ok hdec s).trans ht⟩
  | error r =>
    simp only [hostAccess, hdec]
    split <;> exact ⟨_, rfl⟩

/-- Settles O39: the host's access, the block's enabled event and the reset input each give a next state. -/
theorem stepAlwaysAnswers : Obligations.StepAlwaysAnswers := by
  intro s
  rw [step, nextTransaction]
  cases s.nextTurn.1 with
  | access a => exact exists_hostAccess a _
  | block =>
    obtain ⟨t, ht, -⟩ := exists_blockMove s.nextTurn.2
    exact ⟨t, ht⟩
  | reset => exact ⟨_, rfl⟩

/-! ### Transaction time -/

/-- Settles O37: a tick that has a transition is `tickEffect`, and no other effect writes NOW. -/
theorem timePassesOnlyInTicks : Obligations.TimePassesOnlyInTicks := by
  intro i s t h
  refine ⟨?tick, fun hne => ?other⟩
  case tick =>
    rintro rfl
    cases he : s.expiryEnabled with
    | false =>
      cases (execTimeTick_of_enabled he).symm.trans h
      rfl
    | true => cases ((eventsExclusive s).2.mpr ((expiryEnabled_iff s).mp he)).symm.trans h
  case other =>
    obtain rfl | ⟨fr, fg, fb, -, -, rfl⟩ | ⟨-, -, -, rfl⟩ | ⟨-, -, -, rfl⟩ | ⟨w, -, -, rfl⟩ | ⟨-, -, w, rfl⟩ |
      ⟨-, -, rfl⟩ | ⟨hi, -, -⟩ := exec_cases h
    case inl => rfl
    case inr.inr.inr.inr.inr.inr.inr => exact absurd hi hne
    all_goals simp

/-! ### The STEPs of one instant under a host that moves -/

/-- The STEPs that an instant can still hold when an expiry is enabled and the host may submit at any time in it: as
`instantSteps`, with a frame always pending for the STEP that finds the active one exhausted. -/
def chainSteps (s : State) : Nat :=
  if s.actCur.toNat < 4 then
    4 - s.actCur.toNat + if (s.act.get (s.actCur.toNat - 1)).duty.toNat = 0 then 0 else 4
  else 4

/-- A bound on the STEPs still to come in the present instant, whatever the host does in it: those of an enabled expiry, and
for a block that is not started START's STEP and those that can follow it. -/
def stepsAhead (s : State) : Nat :=
  (if s.started then 0 else 8) + if s.expiryEnabled then chainSteps s else 0

/-- With no expiry enabled only START's STEP can come. -/
theorem stepsAhead_of_not_enabled {s : State} (h : s.expiryEnabled = false) :
    stepsAhead s = if s.started then 0 else 8 := by
  simp [stepsAhead, h]

/-- The STEPs ahead of a block that is not started are at least the eight that START can bring. -/
theorem eight_le_stepsAhead {s : State} (h : s.started = false) : 8 ≤ stepsAhead s := by
  simp [stepsAhead, h]

/-- The STEPs ahead of a block that is started are at most eight. -/
theorem stepsAhead_le_eight {s : State} (h : s.started = true) : stepsAhead s ≤ 8 := by
  simp only [stepsAhead, chainSteps, h]
  split_ifs <;> omega

/-- Raising a fault leaves no more STEPs ahead: a faulted block takes no expiry (60_exceptions.md R137). -/
theorem raiseFault_stepsAhead_le {c : FaultCode} (hc : c ≠ .noFault) (s : State) :
    stepsAhead (s.raiseFault c) ≤ stepsAhead s := by
  rw [stepsAhead_of_not_enabled (expiryEnabled_of_fault (raiseFault_fault_ne hc s)), State.raiseFault_started]
  exact Nat.le_add_right _ _

/-- The STEP of an entry leaves fewer STEPs to the instant, also when a frame is submitted in it. -/
theorem chainSteps_stepEntry_lt {s : State} (hs : Inv s) (hcur : s.actCur.toNat < 4)
    (h : (stepEntry s).expiryEnabled = true) : chainSteps (stepEntry s) < chainSteps s := by
  have hlt := instantSteps_stepEntry_lt hs hcur h
  simp only [chainSteps, instantSteps, exhaustedSteps, stepEntry_actCur_toNat hcur, stepEntry_pndV, stepEntry_act] at hlt ⊢
  split_ifs at hlt ⊢ <;> omega

/-- A swap's first entry leaves the instant at most the other three, for it is over at once only at duty 0. -/
theorem chainSteps_stepEntry_swapFrame {s : State} (h : (stepEntry (swapFrame s)).expiryEnabled = true) :
    chainSteps (stepEntry (swapFrame s)) = 3 := by
  have hduty : (s.pnd.get 0).duty.toNat = 0 := by simpa using duty_le_prevDuty_of_stepEntry_enabled h
  simp [chainSteps, hduty]

/-- The STEP of an enabled expiry leaves fewer STEPs ahead, on each of its three paths (42_sequencer.md R121). -/
theorem sequencerStep_stepsAhead_lt {s : State} (hs : Inv s) (h : s.expiryEnabled = true) :
    stepsAhead (sequencerStep s) < stepsAhead s := by
  rw [stepsAhead, stepsAhead, sequencerStep_started, if_pos h, Nat.add_lt_add_iff_left]
  cases ht : (sequencerStep s).expiryEnabled with
  | false =>
    rw [if_neg (by decide), chainSteps]
    split <;> omega
  | true =>
    rw [if_pos rfl]
    obtain ⟨hcur, e⟩ | ⟨hcur, -, e⟩ | ⟨-, -, e⟩ := sequencerStep_cases s <;> rw [e] at ht ⊢
    · exact chainSteps_stepEntry_lt hs hcur ht
    · rw [chainSteps_stepEntry_swapFrame ht, chainSteps, if_neg (by omega)]
      decide
    · cases (stepIdle_expiryEnabled s).symm.trans ht

/-! ### What a turn other than the reset input does -/

/-- What a turn other than the reset input can be: a move of the block, a command or a read, or a bad access. An access outside
the window does what NOP does: nothing. -/
theorem takeTurn_cases_of_ne_reset {turn : Turn} {u t : State} (h : takeTurn turn u = .next t) (hne : turn ≠ .reset) :
    (turn = .block ∧ blockMove u = .next t) ∨
      (turn ≠ .block ∧ ((∃ i, i ≠ .expire ∧ i ≠ .timeTick ∧ exec i u = .next t) ∨ ∃ a, t = badAccess a u)) := by
  obtain ⟨rfl, hexec⟩ | ⟨hreset, -⟩ | ⟨a, rfl, ⟨i, hdec, hexec⟩ | ⟨-, rfl⟩ | ⟨r, -, -, rfl⟩⟩ := takeTurn_cases h
  · exact .inl ⟨rfl, hexec⟩
  · exact absurd hreset hne
  · obtain ⟨hexpire, htick⟩ := ne_event_of_decode hdec
    exact .inr ⟨nofun, .inl ⟨i, hexpire, htick, hexec⟩⟩
  · exact .inr ⟨nofun, .inl ⟨.nop, nofun, nofun, nopChangesNothing t⟩⟩
  · exact .inr ⟨nofun, .inr ⟨a, rfl⟩⟩

/-- A turn other than the reset input keeps the invariants. -/
theorem takeTurn_inv {turn : Turn} {u t : State} (hu : Inv u) (h : takeTurn turn u = .next t) (hne : turn ≠ .reset) :
    Inv t := by
  obtain ⟨-, hmove⟩ | ⟨-, ⟨i, -, -, hexec⟩ | ⟨a, rfl⟩⟩ := takeTurn_cases_of_ne_reset h hne
  · exact exec_inv hu hmove
  · exact exec_inv hu hexec
  · exact badAccess_inv a hu

/-- A bad access takes no time and leaves no more STEPs ahead. -/
theorem badAccess_now_stepsAhead (a : Access) (s : State) :
    (badAccess a s).now = s.now ∧ stepsAhead (badAccess a s) ≤ stepsAhead s := by
  cases a <;> exact ⟨State.raiseFault_now _ s, raiseFault_stepsAhead_le (c := .badAccess) nofun s⟩

/-- A command or a read takes no time and leaves no more STEPs ahead: SUBMIT's frame is counted already, and so is START's
first STEP. -/
theorem exec_now_stepsAhead {i : Instr} {s t : State} (h : exec i s = .next t) (hexpire : i ≠ .expire)
    (htick : i ≠ .timeTick) : t.now = s.now ∧ stepsAhead t ≤ stepsAhead s := by
  refine ⟨(timePassesOnlyInTicks i s t h).2 htick, ?_⟩
  obtain rfl | ⟨fr, fg, fb, -, -, rfl⟩ | ⟨-, -, -, rfl⟩ | ⟨-, -, hstarted, rfl⟩ | ⟨w, -, -, rfl⟩ | ⟨-, -, w, rfl⟩ |
    ⟨hi, -, -⟩ | ⟨hi, -, -⟩ := exec_cases h
  · exact le_rfl
  · exact le_rfl
  · exact raiseFault_stepsAhead_le (by decide) s
  · exact (stepsAhead_le_eight (sequencerStep_started _)).trans (eight_le_stepsAhead hstarted)
  · exact raiseFault_stepsAhead_le (by decide) s
  · exact le_rfl
  · exact absurd hi hexpire
  · exact absurd hi htick

/-- Either time passes, or there are no more STEPs ahead than before, and fewer after a move of the block. -/
theorem takeTurn_advances {turn : Turn} {u t : State} (hu : Inv u) (h : takeTurn turn u = .next t) (hne : turn ≠ .reset) :
    u.now < t.now ∨
      (t.now = u.now ∧ stepsAhead t ≤ stepsAhead u ∧ (turn = .block → stepsAhead t < stepsAhead u)) := by
  obtain ⟨rfl, hmove⟩ | ⟨hblock, ⟨i, hexpire, htick, hexec⟩ | ⟨a, rfl⟩⟩ := takeTurn_cases_of_ne_reset h hne
  · cases he : u.expiryEnabled with
    | true =>
      cases (blockMove_of_enabled he).symm.trans hmove
      have hlt := sequencerStep_stepsAhead_lt hu he
      exact .inr ⟨sequencerStep_now u, hlt.le, fun _ => hlt⟩
    | false =>
      cases (blockMove_of_not_enabled he).symm.trans hmove
      exact .inl (Nat.lt_succ_self _)
  · obtain ⟨hnow, hle⟩ := exec_now_stepsAhead hexec hexpire htick
    exact .inr ⟨hnow, hle, fun hb => absurd hb hblock⟩
  · obtain ⟨hnow, hle⟩ := badAccess_now_stepsAhead a u
    exact .inr ⟨hnow, hle, fun hb => absurd hb hblock⟩

/-! ### The armed timer -/

/-- The timer is armed and its count ends at the instant. -/
def TimerDue (instant : Nat) (s : State) : Prop := s.tarmed = true ∧ s.now + s.tcnt.toNat = instant

/-- An enabled expiry is due now. -/
theorem TimerDue.now_of_enabled {instant : Nat} {s : State} (h : TimerDue instant s) (he : s.expiryEnabled = true) :
    s.now = instant := by
  obtain ⟨-, htcnt, -⟩ := (expiryEnabled_iff s).mp he
  simpa [htcnt] using h.2

/-- Raising a fault does not write the timer. -/
theorem TimerDue.after_raiseFault {instant : Nat} {s : State} (h : TimerDue instant s) (c : FaultCode) :
    TimerDue instant (s.raiseFault c) := by
  simpa [TimerDue] using h

/-- A tick brings an armed timer one time unit nearer to the instant at which it is due. -/
theorem TimerDue.after_tick {instant : Nat} {s : State} (h : TimerDue instant s) (hfault : s.fault = .noFault)
    (he : s.expiryEnabled = false) : TimerDue instant (tickEffect s) := by
  obtain ⟨htarmed, hinstant⟩ := h
  have htcnt : s.tcnt ≠ 0#16 := fun hzero => by simp [(expiryEnabled_iff s).mpr ⟨htarmed, hzero, hfault⟩] at he
  refine ⟨htarmed, ?_⟩
  rw [tickEffect_now, tickEffect_tcnt, if_pos ⟨hfault, htarmed, htcnt⟩]
  bv_omega

/-- A command or a read leaves the timer of a started block as it is; a second START raises a fault. -/
theorem TimerDue.after_exec {instant : Nat} {i : Instr} {s t : State} (h : TimerDue instant s) (hstarted : s.started = true)
    (hexec : exec i s = .next t) (hexpire : i ≠ .expire) (htick : i ≠ .timeTick) : TimerDue instant t := by
  obtain rfl | ⟨fr, fg, fb, -, -, rfl⟩ | ⟨-, -, -, rfl⟩ | ⟨-, -, hnot, -⟩ | ⟨w, -, -, rfl⟩ | ⟨-, -, w, rfl⟩ |
    ⟨hi, -, -⟩ | ⟨hi, -, -⟩ := exec_cases hexec
  · exact h
  · exact h
  · exact h.after_raiseFault _
  · cases hnot.symm.trans hstarted
  · exact h.after_raiseFault _
  · exact h
  · exact absurd hi hexpire
  · exact absurd hi htick

/-- While there is no fault, an armed timer stays due at its instant until the block takes its expiry. -/
theorem TimerDue.after_takeTurn {instant : Nat} {turn : Turn} {u t : State} (h : TimerDue instant u) (hu : Inv u)
    (hfault : u.fault = .noFault) (hmove : takeTurn turn u = .next t) (hne : turn ≠ .reset) :
    (turn = .block ∧ u.expiryEnabled = true) ∨ TimerDue instant t := by
  obtain ⟨rfl, hblock⟩ | ⟨-, ⟨i, hexpire, htick, hexec⟩ | ⟨a, rfl⟩⟩ := takeTurn_cases_of_ne_reset hmove hne
  · cases he : u.expiryEnabled with
    | true => exact .inl ⟨rfl, rfl⟩
    | false =>
      cases (blockMove_of_not_enabled he).symm.trans hblock
      exact .inr (h.after_tick hfault he)
  · exact .inr (h.after_exec (hu.started_of_armed h.1) hexec hexpire htick)
  · cases a <;> exact .inr (h.after_raiseFault .badAccess)

/-! ### Infinite runs with no reset -/

/-- An infinite run with no reset in it, from a state that meets the invariants. -/
structure ResetFreeRun (σ : Nat → State) (τ : Nat → Turn) : Prop where
  moves : ∀ n, Performs (τ n) (σ n) (σ (n + 1))
  oneRun : ∀ n, τ n ≠ .reset
  start : Inv (σ 0)

/-- The block moves again, or time has passed, after every point of the run. -/
def KeepsMoving (σ : Nat → State) (τ : Nat → Turn) : Prop :=
  ∀ n, ∃ m, n ≤ m ∧ ((σ n).now < (σ m).now ∨ τ m = .block)

namespace ResetFreeRun

variable {σ : Nat → State} {τ : Nat → Turn}

/-- Every state of the run meets the invariants. -/
theorem inv (run : ResetFreeRun σ τ) (n : Nat) : Inv (σ n) := by
  induction n with
  | zero => exact run.start
  | succ n ih =>
    obtain ⟨schedule, hostLater, hmove⟩ := run.moves n
    exact takeTurn_inv (ih.of_turns schedule hostLater) hmove (run.oneRun n)

/-- Each move of the run lets time pass or leaves no more STEPs ahead, and fewer if it is the block's. -/
theorem advances (run : ResetFreeRun σ τ) (n : Nat) :
    (σ n).now < (σ (n + 1)).now ∨
      ((σ (n + 1)).now = (σ n).now ∧ stepsAhead (σ (n + 1)) ≤ stepsAhead (σ n) ∧
        (τ n = .block → stepsAhead (σ (n + 1)) < stepsAhead (σ n))) := by
  obtain ⟨schedule, hostLater, hmove⟩ := run.moves n
  have hmoved := takeTurn_advances ((run.inv n).of_turns schedule hostLater) hmove (run.oneRun n)
  exact hmoved

/-- Time does not run back. -/
theorem now_mono (run : ResetFreeRun σ τ) : Monotone fun n => (σ n).now :=
  monotone_nat_of_le_succ fun n => by
    obtain hlt | ⟨hnow, -⟩ := run.advances n
    · exact hlt.le
    · exact hnow.ge

/-- As long as time stands still there are no more STEPs ahead. -/
theorem stepsAhead_le (run : ResetFreeRun σ τ) {n m : Nat} (hnm : n ≤ m) (hnow : (σ m).now ≤ (σ n).now) :
    stepsAhead (σ m) ≤ stepsAhead (σ n) := by
  induction m, hnm using Nat.le_induction with
  | base => exact le_rfl
  | succ m hnm ih =>
    have hback := run.now_mono hnm
    obtain hlt | ⟨hsame, hle, -⟩ := run.advances m
    · exact absurd hnow (hback.trans_lt hlt).not_ge
    · exact hle.trans (ih (hsame ▸ hnow))

/-- While the block keeps moving, time passes: each of its moves in one instant uses up one of the STEPs ahead. -/
theorem exists_now_lt (run : ResetFreeRun σ τ) (hmoves : KeepsMoving σ τ) (n : Nat) : ∃ m, (σ n).now < (σ m).now := by
  induction hk : stepsAhead (σ n) using Nat.strong_induction_on generalizing n with
  | _ k ih =>
    obtain ⟨m, hnm, hlt | hblock⟩ := hmoves n
    · exact ⟨m, hlt⟩
    · have hback := run.now_mono hnm
      obtain hlt | hle := lt_or_ge (σ n).now (σ m).now
      · exact ⟨m, hlt⟩
      · have hsteps := run.stepsAhead_le hnm hle
        obtain hlt | ⟨hsame, -, hless⟩ := run.advances m
        · exact ⟨m + 1, hback.trans_lt hlt⟩
        · obtain ⟨l, hl⟩ := ih _ (by have := hless hblock; omega) (m + 1) rfl
          exact ⟨l, by rw [hsame] at hl; exact hback.trans_lt hl⟩

/-- While the block keeps moving, NOW grows without bound. -/
theorem exists_instant_lt (run : ResetFreeRun σ τ) (hmoves : KeepsMoving σ τ) (instant : Nat) :
    ∃ n, instant < (σ n).now := by
  induction instant with
  | zero =>
    obtain ⟨n, hn⟩ := run.exists_now_lt hmoves 0
    exact ⟨n, (Nat.zero_le _).trans_lt hn⟩
  | succ instant ih =>
    obtain ⟨n, hn⟩ := ih
    obtain ⟨m, hm⟩ := run.exists_now_lt hmoves n
    exact ⟨m, lt_of_le_of_lt hn hm⟩

/-- At any later point of the run an armed timer is still due at its instant, unless the block took its expiry then or a fault
was raised by then. -/
theorem timerDue_or (run : ResetFreeRun σ τ) {instant n m : Nat} (hnm : n ≤ m) (hdue : TimerDue instant (σ n)) :
    TimerDue instant (σ m) ∨
      (∃ k, n ≤ k ∧ (σ k).now = instant ∧ (σ k).expiryEnabled = true ∧ τ k = .block) ∨
      (∃ k, n ≤ k ∧ (σ k).now ≤ instant ∧ (σ k).fault ≠ .noFault) := by
  induction m, hnm using Nat.le_induction with
  | base => exact .inl hdue
  | succ m hnm ih =>
    obtain hdue | hover := ih
    · by_cases hfault : (σ m).fault = .noFault
      · obtain ⟨schedule, hostLater, hmove⟩ := run.moves m
        have hturn := TimerDue.after_takeTurn (u := { σ m with schedule := schedule, hostLater := hostLater }) hdue
          ((run.inv m).of_turns schedule hostLater) hfault hmove (run.oneRun m)
        obtain ⟨hblock, he⟩ | hdue' := hturn
        · exact .inr (.inl ⟨m, hnm, hdue.now_of_enabled he, he, hblock⟩)
        · exact .inl hdue'
      · exact .inr (.inr ⟨m, hnm, hdue.2 ▸ Nat.le_add_right _ _, hfault⟩)
    · exact .inr hover

end ResetFreeRun

/-! ### Fair runs -/

/-- On a fair run the block keeps moving: after finitely many turns time has passed or the rest of the instant is the block's
(70_reset_and_hazards.md R172 (c)). -/
theorem FairRun.keepsMoving {σ : Nat → State} {τ : Nat → Turn} (fair : FairRun σ τ) (run : ResetFreeRun σ τ) :
    KeepsMoving σ τ := by
  intro n
  obtain ⟨bound, hbound⟩ := fair.hostFinite (σ n).now
  have hle : (σ n).now ≤ (σ (max n bound)).now := run.now_mono (le_max_left n bound)
  refine ⟨max n bound, le_max_left n bound, hle.lt_or_eq.imp_right fun hnow => ?_⟩
  exact hbound _ (le_max_right n bound) hnow.symm

/-- Settles O59: the block keeps moving, so NOW passes the instant at which an armed timer is due, and past it the timer is due
no more: its expiry was taken in that instant, unless a fault froze it. -/
theorem fairRunsProgress : Obligations.FairRunsProgress := by
  intro σ τ fair hstart
  have run : ResetFreeRun σ τ := ⟨fair.moves, fair.oneRun, hstart⟩
  have progress := run.exists_instant_lt (fair.keepsMoving run)
  refine ⟨progress, fun n htarmed => ?_⟩
  obtain ⟨m, hpast⟩ := progress ((σ n).now + (σ n).tcnt.toNat)
  have hnm : n ≤ m := (run.now_mono.reflect_lt ((Nat.le_add_right _ _).trans_lt hpast)).le
  refine (run.timerDue_or hnm ⟨htarmed, rfl⟩).resolve_left fun hdue => ?_
  have hdue := hdue.2
  omega

/-! ### Runs of the step -/

section
variable {σ : Nat → State} (hstep : ∀ n, step (σ n) = .next (σ (n + 1)))
include hstep

/-- A step performs the next turn. -/
theorem performs_nextTurn (n : Nat) : Performs (σ n).nextTurn.1 (σ n) (σ (n + 1)) :=
  ⟨(σ n).nextTurn.2.schedule, (σ n).nextTurn.2.hostLater, nextTurn_state (σ n) ▸ hstep n⟩

/-- A step leaves the schedule without the turn it takes. -/
theorem schedule_succ (n : Nat) : (σ (n + 1)).schedule = (σ n).nextTurn.2.schedule :=
  (takeTurn_turns (hstep n)).1

/-- The turns of the schedule are taken one by one. -/
theorem schedule_add_length {turns rest : List Turn} {n : Nat} (h : (σ n).schedule = turns ++ rest) :
    (σ (n + turns.length)).schedule = rest := by
  induction turns generalizing n with
  | nil => exact h
  | cons turn turns ih =>
    have hnext : (σ (n + 1)).schedule = turns ++ rest := by
      rw [schedule_succ hstep, nextTurn_cons (h.trans (List.cons_append ..))]
    rw [List.length_cons, Nat.add_comm turns.length, ← Nat.add_assoc]
    exact ih hnext

/-- A move of the block that stands in the schedule is taken. -/
theorem exists_block_of_schedule {turns rest : List Turn} {n : Nat} (h : (σ n).schedule = turns ++ .block :: rest) :
    ∃ m, n ≤ m ∧ (σ m).nextTurn.1 = .block :=
  ⟨n + turns.length, Nat.le_add_right _ _, by rw [nextTurn_cons (schedule_add_length hstep h)]⟩

/-- After the last turn of the schedule the block moves: at once if the host is silent, else after the next batch
(assumption 1). -/
theorem exists_block_of_schedule_nil {n : Nat} (h : (σ n).schedule = []) : ∃ m, n ≤ m ∧ (σ m).nextTurn.1 = .block := by
  cases hlater : (σ n).hostLater with
  | silent => exact ⟨n, le_rfl, by rw [nextTurn_silent h hlater]⟩
  | goesOn batch =>
    have hturn := nextTurn_goesOn h hlater
    cases hturns : Config.hostTurns batch with
    | nil =>
      rw [hturns] at hturn
      exact ⟨n, le_rfl, congrArg Prod.fst (hturn.trans (nextTurn_cons rfl))⟩
    | cons turn turns =>
      rw [hturns] at hturn
      have hnext : (σ (n + 1)).schedule = turns ++ [.block] := by
        rw [schedule_succ hstep, hturn.trans (nextTurn_cons (List.cons_append ..))]
      obtain ⟨m, hnm, hm⟩ := exists_block_of_schedule hstep hnext
      exact ⟨m, n.le_succ.trans hnm, hm⟩

/-- The block moves again after every point of a run of the step. -/
theorem exists_block_turn (n : Nat) : ∃ m, n ≤ m ∧ (σ m).nextTurn.1 = .block := by
  have hnil := schedule_add_length hstep (n := n) (List.append_nil (σ n).schedule).symm
  obtain ⟨m, hnm, hm⟩ := exists_block_of_schedule_nil hstep hnil
  exact ⟨m, (Nat.le_add_right _ _).trans hnm, hm⟩

end

/-- Settles O60: the block moves again and again, which is (a) and (b); so NOW grows without bound, and an instant
that is past holds no more accesses, which is (c). -/
theorem machineRunsAreFair : Obligations.MachineRunsAreFair := by
  intro σ hstart hstep hreset
  have run : ResetFreeRun σ fun n => (σ n).nextTurn.1 := ⟨performs_nextTurn hstep, hreset, hstart⟩
  have moves := exists_block_turn hstep
  exact
    { moves := run.moves
      oneRun := run.oneRun
      expiryTaken := fun n _ => (moves n).imp fun _ => And.imp_right .inl
      tickTaken := fun n _ => (moves n).imp fun _ => And.imp_right .inl
      hostFinite := fun instant => by
        obtain ⟨bound, hbound⟩ := run.exists_instant_lt (fun n => (moves n).imp fun _ => And.imp_right .inr) instant
        exact ⟨bound, fun n hn hnow => absurd hnow (hbound.trans_le (run.now_mono hn)).ne'⟩ }

end Sys2Proof.Machine
end
